-- ==== Sys2Proof/Word.lean ====
section
/-! DEFINITION. The value types of the notation: bits, bytes, words and the enumerations of rules R10 to R12,
and the named wait intervals of R9. -/

namespace Sys2Proof

/-- A bit, `false` for 0 and `true` for 1 (R10). -/
abbrev Bit := Bool

/-- An unsigned 8-bit value (R10). -/
abbrev Byte := BitVec 8

/-- An unsigned 16-bit value (R10). -/
abbrev Word := BitVec 16

/-- The five signal roles CLK, DOUT, DIN, BKPT, RST (R11). -/
inductive Role where
  | clk
  | dout
  | din
  | bkpt
  | rst
  deriving DecidableEq, Repr, Inhabited

/-- `Dir ::= IN | OUT` (R11). -/
inductive Dir where
  | input
  | output
  deriving DecidableEq, Repr, Inhabited

/-- `Level ::= LOW | HIGH` (R11). -/
inductive Level where
  | low
  | high
  deriving DecidableEq, Repr, Inhabited

/-- One value for each of the five roles (R23). -/
structure PerRole (α : Type) where
  clk : α
  dout : α
  din : α
  bkpt : α
  rst : α
  deriving DecidableEq, Repr

/-- `Packet = { status : bit, data : word }` (R12). -/
structure Packet where
  status : Bit
  data : Word
  deriving DecidableEq, Repr

/-- The intervals the core waits for, by the name of their parameter in R9: T_SETTLE, T_BKPT_ASSERT,
T_RST_ASSERT, T_RST_RELEASE, T_BKPT_RELEASE. -/
inductive Interval where
  | settle
  | bkptAssert
  | rstAssert
  | rstRelease
  | bkptRelease
  deriving DecidableEq, Repr, Inhabited

end Sys2Proof
end

