-- ==== Sys2Proof/Config.lean ====
section
/-! DEFINITION. The implementation parameters of R9. Those marked OPEN are constants without a value, so that a
claim holds for every value of them; where R9 or R67 constrains a parameter, the constant is built from
unconstrained ones so that every admitted value stays possible and no other is. -/

namespace Sys2Proof.Config

/-- PACKET_BITS: bit transfers per packet (R9). -/
def packetBits : Nat := 17

/-- DATA_BITS: data bits per packet (R9). -/
def dataBits : Nat := 16

/-- PAYLOAD_BYTES: payload bytes after `S` and `s` (R9). -/
def payloadBytes : Nat := 2

/-- ACK, the acknowledgment byte: OPEN (R9, D12; log 8). -/
opaque ack : Byte

/-- How far NAK lies above ACK, less one: any of the 255 non-zero distances (R67; log 8). -/
opaque nakOffset : Fin 255

/-- NAK, the negative-acknowledgment byte: OPEN, and different from ACK (R9, R67; log 8). -/
def nak : Byte := ack + BitVec.ofNat 8 (nakOffset.val + 1)

/-- STATUS_TRUE, the marker byte for status bit 1: OPEN (R9, R66; log 8). -/
opaque statusTrue : Byte

/-- How far STATUS_FALSE lies above STATUS_TRUE, less one: any of the 255 non-zero distances (R67; log 8). -/
opaque statusOffset : Fin 255

/-- STATUS_FALSE, the marker byte for status bit 0: OPEN, and different from STATUS_TRUE (R9, R67; log 8). -/
def statusFalse : Byte := statusTrue + BitVec.ofNat 8 (statusOffset.val + 1)

/-- PING_PAYLOAD[0..3], the literal Ping payload: OPEN (R9, D12; log 8). -/
opaque pingPayload : Fin 4 → Byte

/-- The number of a role among the five, used only to read PIN_MAP. -/
def roleIndex : Role → Nat
  | .clk => 0
  | .dout => 1
  | .din => 2
  | .bkpt => 3
  | .rst => 4

/-- A renumbering of the GPIO lines, OPEN: every injective binding of the five roles is the start of one (log 9). -/
opaque lineOrder : Equiv.Perm Nat

/-- PIN_MAP: the GPIO line each role is bound to, injective and otherwise OPEN (R9, R23, R50, D3; log 9). -/
def pinMap (r : Role) : Nat := lineOrder (roleIndex r)

/-- The minimum durations T_SETTLE, T_BKPT_ASSERT, T_RST_ASSERT, T_RST_RELEASE and T_BKPT_RELEASE, in a free time
unit: OPEN (R9, R14, U7; log 10). -/
opaque duration : Interval → Nat

/-- The reference durations of R9 in milliseconds: 50 for each of the four holds, and the settle time, which the
source does not give, as an argument (R9, R112, D6; log 10). -/
def referenceDuration (tSettle : Nat) : Interval → Nat
  | .settle => tSettle
  | .bkptAssert => 50
  | .rstAssert => 50
  | .rstRelease => 50
  | .bkptRelease => 50

/-- EnvLevel(r): the level the environment puts on role r's line at the n-th draw, a free value (R25, R32, R83). That
it is numbered by draws alone, and not by moments or by what the run did before, is a DESIGN CHOICE (logs 6 and 19). -/
opaque envLevel : Role → Nat → Level

end Sys2Proof.Config
end

