-- ==== Sys2Proof/Syntax.lean ====
section
/-! DEFINITION. The core's instructions: the host command frames of R3, R60 and R61, one constructor per row of
the opcode table. -/

namespace Sys2Proof

/-- A host command frame (R3, R11). Its operand is the payload word of R63, or for Unknown the byte itself. -/
inductive Instr where
  /-- `P`, Ping (R122). -/
  | ping
  /-- `B`, Breakpoint (R123). -/
  | breakpoint
  /-- `R`, Reset (R124). -/
  | reset
  /-- `S`, SendReceive of the payload word d (R125). -/
  | sendReceive (d : Word)
  /-- `s`, Send of the payload word d (R126). -/
  | send (d : Word)
  /-- `r`, Receive (R127). -/
  | receive
  /-- Any other byte b (R128). -/
  | unknown (b : Byte)
  deriving DecidableEq, Repr

end Sys2Proof
end

