-- ==== Sys2Proof/WellFormed.lean ====
section
/-! DEFINITION. When a term of `Instr` stands for a frame: an Unknown frame holds none of the six command bytes
(R61, R68); every other term is a frame. -/

namespace Sys2Proof

/-- The six command bytes of R61. -/
def isCommandByte (b : Byte) : Bool :=
  b == 0x50#8 || b == 0x42#8 || b == 0x52#8 || b == 0x53#8 || b == 0x73#8 || b == 0x72#8

/-- The frame exists: an Unknown byte is outside the six command bytes (R61, R68, R128). -/
def Instr.wellFormed : Instr → Bool
  | .ping => true
  | .breakpoint => true
  | .reset => true
  | .sendReceive _ => true
  | .send _ => true
  | .receive => true
  | .unknown b => !isCommandByte b

end Sys2Proof
end

