-- ==== Sys2Proof/Decode.lean ====
section
/-! DEFINITION. Decoding and encoding of command frames (R60 to R64, R68), the payload's byte order (R42), and the
host's numbering of a table row's bits. -/

namespace Sys2Proof

/-- Why bytes do not hold a whole frame yet. No byte sequence is rejected for its values (R68, R141 (a)). -/
inductive DecodeReject where
  /-- There is no command byte. -/
  | noCommandByte
  /-- The first payload byte after command c is not there. -/
  | noPayloadHigh (c : Byte)
  /-- The second payload byte after command c and first payload byte h is not there. -/
  | noPayloadLow (c h : Byte)
  deriving DecidableEq, Repr

/-- The word of two payload bytes, big-endian: `zext_16(h ++ l)` (R42, R63). -/
def payloadWord (h l : Byte) : Word := (h.setWidth 16 <<< 8) ||| l.setWidth 16

/-- Bits 15..8 of a word, its first byte on the host link (R42, R43). -/
def highByte (d : Word) : Byte := d.extractLsb' 8 8

/-- Bits 7..0 of a word, its second byte on the host link (R42, R43). -/
def lowByte (d : Word) : Byte := d.extractLsb' 0 8

/-- The commands whose frame carries a payload: `S` and `s` (R61, R62). -/
def carriesPayload (c : Byte) : Bool := c == 0x53#8 || c == 0x73#8

/-- `FrameLength(c)` (R62): the command byte, and for `S` and `s` the PAYLOAD_BYTES of R9. -/
def frameLength (c : Byte) : Nat := if carriesPayload c then 1 + Config.payloadBytes else 1

/-- A `CMD_D16` frame after its command byte c (R60, R63). -/
def decodePayload (make : Word → Instr) (c : Byte) : List Byte → Except DecodeReject (Instr × List Byte)
  | [] => .error (.noPayloadHigh c)
  | [h] => .error (.noPayloadLow c h)
  | h :: l :: rest => .ok (make (payloadWord h l), rest)

/-- The frame at the head of a byte sequence, with the bytes after it: exact matching on all 8 bits of the command
byte, Unknown last (R61, R62, R64, R68). -/
def decode : List Byte → Except DecodeReject (Instr × List Byte)
  | [] => .error .noCommandByte
  | c :: rest =>
    if c = 0x50#8 then .ok (.ping, rest)
    else if c = 0x42#8 then .ok (.breakpoint, rest)
    else if c = 0x52#8 then .ok (.reset, rest)
    else if c = 0x53#8 then decodePayload .sendReceive c rest
    else if c = 0x73#8 then decodePayload .send c rest
    else if c = 0x72#8 then .ok (.receive, rest)
    else .ok (.unknown c, rest)

/-- The bytes of a frame, in the order the host sends them (R60, R61). -/
def encode : Instr → List Byte
  | .ping => [0x50#8]
  | .breakpoint => [0x42#8]
  | .reset => [0x52#8]
  | .sendReceive d => [0x53#8, highByte d, lowByte d]
  | .send d => [0x73#8, highByte d, lowByte d]
  | .receive => [0x72#8]
  | .unknown b => [b]

/-- The command byte of a frame (R60). -/
def commandByte : Instr → Byte
  | .ping => 0x50#8
  | .breakpoint => 0x42#8
  | .reset => 0x52#8
  | .sendReceive _ => 0x53#8
  | .send _ => 0x73#8
  | .receive => 0x72#8
  | .unknown b => b

/-- The bytes of the frame whose bits are the low nbits of w, bit 0 the least significant bit of the command byte and
each later byte counting on; a payload byte the table gives no bits is 0 (log 12). -/
def frameBytes (nbits w : Nat) : List Byte :=
  let v := w % 2 ^ nbits
  let c := BitVec.ofNat 8 v
  [c, BitVec.ofNat 8 (v / 2 ^ 8), BitVec.ofNat 8 (v / 2 ^ 16)].take (frameLength c)

/-- The instruction the decoder reads from a table row's bits. -/
def decodeTableWord (nbits w : Nat) : Option Instr :=
  match decode (frameBytes nbits w) with
  | .ok (i, []) => some i
  | .ok (_, _ :: _) => none
  | .error _ => none

end Sys2Proof
end

