-- ==== Sys2Proof/Machine/State.lean ====
section
/-! DEFINITION. The machine's state as plain data (10_state.md), its reset value (R33, R160), and the reasons a step
can stop. -/

namespace Sys2Proof.Machine

/-- The pin state: direction and output level of each role (R23). -/
structure Pins where
  dir : PerRole Dir
  lat : PerRole Level
  deriving DecidableEq, Repr

/-- One action of the core's trace (R7, R13). -/
inductive Action where
  /-- `PinConfigure(r, d)` (R81). -/
  | pinConfigure (r : Role) (d : Dir)
  /-- `PinWrite(r, l)` (R82). -/
  | pinWrite (r : Role) (l : Level)
  /-- `PinRead(r)` that returned l (R83). -/
  | pinRead (r : Role) (l : Level)
  /-- `Wait(t)` (R150). -/
  | wait (t : Interval)
  /-- `HostRead()` that returned b (R120). -/
  | hostRead (b : Byte)
  /-- `HostWrite(b)` (R120). -/
  | hostWrite (b : Byte)
  deriving DecidableEq, Repr

/-- A primitive asked for, before it is performed (R13). -/
inductive Request where
  | configure (r : Role) (d : Dir)
  | write (r : Role) (l : Level)
  | read (r : Role)
  | wait (t : Interval)
  | hostRead
  | hostWrite (b : Byte)
  deriving DecidableEq, Repr

/-- The step of R90 that comes next in a bit transfer, the `ph = 1..4` of R29. -/
inductive Phase where
  /-- Step 1: drive DataOut. -/
  | drive
  /-- Step 2: raise Clock. -/
  | raise
  /-- Step 3: lower Clock. -/
  | lower
  /-- Step 4: sample DataIn. -/
  | sample
  deriving DecidableEq, Repr

/-- The dispatcher's sub-states (R29), holding the registers k and n of R30 as their arguments (log 5). -/
inductive SubState where
  /-- Waiting in HostRead for a command byte. -/
  | idle
  /-- Waiting in HostRead for payload byte 1. -/
  | payloadHi
  /-- Waiting in HostRead for payload byte 2. -/
  | payloadLo
  /-- Packet transfer: bit transfer k, step ph of R90. -/
  | xfer (k : Fin 17) (ph : Phase)
  /-- Debug-mode entry: action n of R111, counted from 1. -/
  | dbg (n : Nat)
  /-- Writing the response bytes q still to be sent. -/
  | resp (q : List Byte)
  deriving DecidableEq, Repr

/-- The injected target that decides the DIN samples (R85). -/
inductive Target where
  /-- Every DIN sample is an unconstrained draw (R85 (a)), numbered by `State.draws` (log 6). -/
  | free
  /-- DataOut feeds DataIn (R85 (b)). -/
  | loopback
  /-- The next DIN samples are these, then draws as under `free` (target scripts, 95_test_vectors.md; log 7). -/
  | script (levels : List Level)
  deriving DecidableEq, Repr

/-- The machine (10_state.md). -/
structure State where
  /-- Directions and output levels (R23, R26). -/
  pins : Pins
  /-- The dispatcher's sub-state (R29). -/
  disp : SubState
  /-- CMD[7:0], the command byte being executed (R30). -/
  cmd : Byte
  /-- TXD[15:0], the word to send (R30). -/
  txd : Word
  /-- STS, the received status bit, the one flag (R28, R30). -/
  sts : Bit
  /-- RXD[15:0], the received data bits (R30). -/
  rxd : Word
  /-- The host input stream: bytes sent and not yet read, oldest first (R31). -/
  input : List Byte
  /-- The host output stream: every byte written, oldest first (R31; log 13). -/
  output : List Byte
  /-- The injected target (R85; log 7). -/
  target : Target
  /-- The model's own count of environment draws, which numbers the free values (R32; log 6). -/
  draws : Nat
  /-- Every action performed so far, oldest first (R7; log 13). -/
  trace : List Action
  deriving DecidableEq, Repr

/-- The machine never faults: no command, frame or pin state makes the core fault (R155, R140, R141). Nothing raises
it; it has no value. -/
inductive Fault where
  deriving DecidableEq, Repr

/-- Why an operation has no meaning. -/
inductive Refusal where
  /-- An instruction without a meaning, raised by an arm of `exec` only; none is left. Safe. -/
  | notModelled (mnemonic : String)
  /-- An operation that is not one of the core's actions (R155), raised by the guarded primitives of Ops.lean.
  Safe: no command asks for one. -/
  | notCoreAction (q : Request)
  deriving DecidableEq, Repr

/-- The machine right after the reset sequence (R33, R160). The transient registers have no reset value in the spec
and are 0 here (log 4); the target is Free (log 7); the trace holds the reset sequence (log 13). -/
def State.reset : State where
  pins :=
    { dir := { clk := .output, dout := .output, din := .input, bkpt := .input, rst := .input }
      lat := { clk := .low, dout := .low, din := .low, bkpt := .low, rst := .low } }
  disp := .idle
  cmd := 0
  txd := 0
  sts := false
  rxd := 0
  input := []
  output := []
  target := .free
  draws := 0
  trace :=
    [.pinWrite .clk .low, .pinConfigure .clk .output,
     .pinWrite .dout .low, .pinConfigure .dout .output,
     .pinConfigure .din .input,
     .pinWrite .bkpt .low, .pinConfigure .bkpt .input,
     .pinWrite .rst .low, .pinConfigure .rst .input]

end Sys2Proof.Machine
end

