-- ==== Sys2Proof/Machine/Flags.lean ====
section
/-! DEFINITION. The core's one flag, the status bit of a packet (R28), and its marker byte (R66). -/

namespace Sys2Proof.Machine

/-- `Marker(status)` (R66): the status bit is forwarded, not interpreted (R28). -/
def marker (status : Bit) : Byte := if status then Config.statusTrue else Config.statusFalse

end Sys2Proof.Machine
end

