-- ==== Sys2Proof/Machine/Operands.lean ====
section
/-! DEFINITION. Bits, levels and words: the bit-to-level mapping (R11), the order of bits on the pin link (R44, R69),
bit extraction and insertion (R106), and the response bytes of a packet (R43). -/

namespace Sys2Proof

/-- A bit as a level: 0 is LOW and 1 is HIGH (R11, D8). -/
def Level.ofBit (b : Bit) : Level := if b then .high else .low

/-- A level as a bit: LOW is 0 and HIGH is 1 (R11, D8). -/
def Level.toBit : Level → Bit
  | .low => false
  | .high => true

end Sys2Proof

namespace Sys2Proof.Machine

/-- `v[i]`, that is `(v >> i) & 1` (R10, R106). -/
def bitOf (v : Word) (i : Nat) : Bit := v.getLsbD i

/-- `v` with bit i set to b and every other bit kept (R100, R106). -/
def insertBit (v : Word) (i : Nat) (b : Bit) : Word :=
  if b then v ||| (1#16 <<< i) else v &&& ~~~(1#16 <<< i)

/-- The bit sent in transfer k of a packet of d: 0 in transfer 0, then d[16 − k] (R69, R100). -/
def outboundBit (d : Word) (k : Nat) : Bit := if k = 0 then false else bitOf d (16 - k)

/-- The high byte of the word replaced by h, the low byte kept: the first payload byte arriving in TXD (R29, R42). -/
def withHighByte (h : Byte) (d : Word) : Word := payloadWord h (lowByte d)

/-- The low byte of the word replaced by l, the high byte kept: the second payload byte arriving in TXD (R29, R42). -/
def withLowByte (l : Byte) (d : Word) : Word := payloadWord (highByte d) l

end Sys2Proof.Machine
end

