-- ==== Sys2Proof/Machine/Ops.lean ====
section
/-! DEFINITION. The primitives of R13: the pin operations (R81 to R84), Wait (R150), HostRead and HostWrite (R120),
responses (R65), the report of the one error condition (R140, R142), and the guarded primitives of R155. -/

namespace Sys2Proof

/-- The value held for role r. -/
def PerRole.get {α : Type} (p : PerRole α) : Role → α
  | .clk => p.clk
  | .dout => p.dout
  | .din => p.din
  | .bkpt => p.bkpt
  | .rst => p.rst

/-- The value for role r replaced by v, the others kept. -/
def PerRole.set {α : Type} (p : PerRole α) (r : Role) (v : α) : PerRole α :=
  match r with
  | .clk => { p with clk := v }
  | .dout => { p with dout := v }
  | .din => { p with din := v }
  | .bkpt => { p with bkpt := v }
  | .rst => { p with rst := v }

end Sys2Proof

namespace Sys2Proof.Machine

/-- An action is appended to the trace (R7). -/
def State.record (a : Action) (s : State) : State := { s with trace := s.trace ++ [a] }

/-- The pins after the direction of role r is set to d (R81). -/
def Pins.configure (r : Role) (d : Dir) (p : Pins) : Pins := { p with dir := p.dir.set r d }

/-- The pins after the output level of role r is set to l, whatever the direction (R82). -/
def Pins.write (r : Role) (l : Level) (p : Pins) : Pins := { p with lat := p.lat.set r l }

/-- `PinConfigure(r, d)` (R81). -/
def pinConfigure (r : Role) (d : Dir) (s : State) : State :=
  ({ s with pins := s.pins.configure r d }).record (.pinConfigure r d)

/-- `PinWrite(r, l)` (R82). -/
def pinWrite (r : Role) (l : Level) (s : State) : State :=
  ({ s with pins := s.pins.write r l }).record (.pinWrite r l)

/-- The DIN level a target gives at the n-th draw while DOUT carries `dout` (R85). DESIGN CHOICE (logs 6 and 7): under
`free`, and after the end of a script, it is a free value of n alone, so two runs that sample at the same n get the same
level whatever they sent, where R85 (a) and R32 put no law on the samples. -/
def Target.sample (t : Target) (n : Nat) (dout : Level) : Level :=
  match t with
  | .free => Config.envLevel .din n
  | .loopback => dout
  | .script [] => Config.envLevel .din n
  | .script (l :: _) => l

/-- A target after one sample: a script has delivered its first level. -/
def Target.sampled : Target → Target
  | .free => .free
  | .loopback => .loopback
  | .script ls => .script ls.tail

/-- `EnvLevel(r)`: the level the environment decides on role r's line now (R25, R32, R83): the target's for DIN, a
free value for every other role. DESIGN CHOICE (logs 6 and 19): the free level is taken at `draws`, which only a read of
an input line advances, so between two reads an undriven line keeps one level here, where R25 leaves it free at any
moment. -/
def envLevel (r : Role) (s : State) : Level :=
  match r with
  | .din => s.target.sample s.draws s.pins.lat.dout
  | .clk => Config.envLevel .clk s.draws
  | .dout => Config.envLevel .dout s.draws
  | .bkpt => Config.envLevel .bkpt s.draws
  | .rst => Config.envLevel .rst s.draws

/-- The environment after role r's line has been sampled once. -/
def envAdvance (r : Role) (s : State) : State :=
  { s with
    draws := s.draws + 1
    target := if r = .din then s.target.sampled else s.target }

/-- The level on role r's line (R25); that an undriven line's level changes only at a read is a DESIGN CHOICE (logs 6
and 19; see `envLevel`). -/
def lineLevel (r : Role) (s : State) : Level :=
  match s.pins.dir.get r with
  | .output => s.pins.lat.get r
  | .input => envLevel r s

/-- `PinRead(r)` (R83): no state of the core changes; a level the environment decides is one draw. -/
def pinRead (r : Role) (s : State) : Level × State :=
  match s.pins.dir.get r with
  | .output => (s.pins.lat.get r, s.record (.pinRead r (s.pins.lat.get r)))
  | .input => (envLevel r s, (envAdvance r s).record (.pinRead r (envLevel r s)))

/-- `Assert(r)` (R84). -/
def assertLine (r : Role) (s : State) : State := pinWrite r .low (pinConfigure r .output s)

/-- `Release(r)` (R84). -/
def releaseLine (r : Role) (s : State) : State := pinConfigure r .input s

/-- `Wait(t)` (R150): changes no pin and no byte; its lower bound in time is in Timing.lean. -/
def wait (t : Interval) (s : State) : State := s.record (.wait t)

/-- `HostRead()` (R120): the head of the input stream, consumed; none while the stream is empty, a hold. -/
def hostRead (s : State) : Option (Byte × State) :=
  match s.input with
  | [] => none
  | b :: rest => some (b, ({ s with input := rest }).record (.hostRead b))

/-- `HostWrite(b)` (R120). -/
def hostWrite (b : Byte) (s : State) : State :=
  ({ s with output := s.output ++ [b] }).record (.hostWrite b)

/-- HostWrite of each byte in order. -/
def hostWriteAll : List Byte → State → State
  | [], s => s
  | b :: bs, s => hostWriteAll bs (hostWrite b s)

/-- A command has written its last byte: its transient registers are gone and the dispatcher is idle (R22, R120;
log 4). -/
def retire (s : State) : State := { s with disp := .idle, cmd := 0, txd := 0, sts := false, rxd := 0 }

/-- The response of a command, and with it the command's end (R52, R121). -/
def respond (bytes : List Byte) (s : State) : State := retire (hostWriteAll bytes s)

/-- Format `R_ACK` (R65). -/
def ackResponse : List Byte := [Config.ack]

/-- Format `R_PING` (R65). -/
def pingResponse : List Byte :=
  [Config.pingPayload 0, Config.pingPayload 1, Config.pingPayload 2, Config.pingPayload 3, Config.ack]

/-- Format `R_DATA`: marker, then the data big-endian, then ACK (R43, R65). -/
def dataResponse (p : Packet) : List Byte :=
  [marker p.status, highByte p.data, lowByte p.data, Config.ack]

/-- Format `R_NAK` (R65). -/
def nakResponse : List Byte := [Config.nak]

/-- Taking the core's only error condition, Unknown Command, and returning from it: NAK is written inline, nothing is
recorded, and the dispatcher is idle again (R140, R142, R143). -/
def reportUnknownCommand (s : State) : State := respond nakResponse s

/-- The operations the core performs after reset (R24, R26, R83, R155): a direction of BKPT or RST only, a level of
CLK or DOUT, LOW on BKPT or RST, a read of DIN only. R155 names its refusals as examples; that a PinWrite on DIN is one
too is DEDUCED from R82 (log 17). -/
def Request.isCore : Request → Bool
  | .configure .bkpt _ => true
  | .configure .rst _ => true
  | .configure .clk _ => false
  | .configure .dout _ => false
  | .configure .din _ => false
  | .write .clk _ => true
  | .write .dout _ => true
  | .write .din _ => false
  | .write .bkpt .low => true
  | .write .bkpt .high => false
  | .write .rst .low => true
  | .write .rst .high => false
  | .read .din => true
  | .read .clk => false
  | .read .dout => false
  | .read .bkpt => false
  | .read .rst => false
  | .wait _ => true
  | .hostRead => true
  | .hostWrite _ => true

/-- An operation asked for, with its result state: refused by name if it is not one of the core's (R155). -/
def guarded (q : Request) (result : State) : Host.Outcome State Fault Refusal :=
  if q.isCore then .next result else .refused (.notCoreAction q)

/-- One primitive performed under the guard of R155. A HostRead on an empty stream is a hold and changes nothing
(R120; log 2). -/
def perform (q : Request) (s : State) : Host.Outcome State Fault Refusal :=
  match q with
  | .configure r d => guarded q (pinConfigure r d s)
  | .write r l => guarded q (pinWrite r l s)
  | .read r => guarded q (pinRead r s).2
  | .wait t => guarded q (wait t s)
  | .hostRead => guarded q ((hostRead s).elim s Prod.snd)
  | .hostWrite b => guarded q (hostWrite b s)

/-- Go on with f where the outcome is a next state. -/
def andThen (o : Host.Outcome State Fault Refusal) (f : State → Host.Outcome State Fault Refusal) :
    Host.Outcome State Fault Refusal :=
  match o with
  | .next s => f s
  | .fault r => .fault r
  | .refused r => .refused r

end Sys2Proof.Machine
end

