-- ==== Sys2Proof/Machine/Sequencer.lean ====
section
/-! DEFINITION. The debug-mode entry sequencer (43_debug_entry.md). -/

namespace Sys2Proof.Machine

/-- Step 2 of R110: Reset is pulsed while Breakpoint is held. -/
def pulseReset (s : State) : State :=
  let s := assertLine .rst s
  let s := wait .rstAssert s
  let s := releaseLine .rst s
  wait .rstRelease s

/-- `enterDebugMode(withReset)` (R110). -/
def enterDebugMode (withReset : Bool) (s : State) : State :=
  let s := assertLine .bkpt s
  let s := wait .bkptAssert s
  let s := if withReset then pulseReset s else s
  let s := releaseLine .bkpt s
  wait .bkptRelease s

/-- The action traces of R111, action n of the text at index n − 1. -/
def debugSequence : Bool → List Request
  | false =>
    [.configure .bkpt .output, .write .bkpt .low, .wait .bkptAssert, .configure .bkpt .input, .wait .bkptRelease]
  | true =>
    [.configure .bkpt .output, .write .bkpt .low, .wait .bkptAssert,
     .configure .rst .output, .write .rst .low, .wait .rstAssert, .configure .rst .input, .wait .rstRelease,
     .configure .bkpt .input, .wait .bkptRelease]

end Sys2Proof.Machine
end

