-- ==== Sys2Proof/Machine/DebugCommands.lean ====
section
/-! DEFINITION. The commands that enter debug mode: Breakpoint (R123) and Reset (R124). -/

namespace Sys2Proof.Machine

/-- `DoBreakpoint()` (R123). -/
def execBreakpoint (s : State) : Host.Outcome State Fault Refusal :=
  .next (respond ackResponse (enterDebugMode false s))

/-- `DoReset()` (R124). -/
def execReset (s : State) : Host.Outcome State Fault Refusal :=
  .next (respond ackResponse (enterDebugMode true s))

end Sys2Proof.Machine
end

