-- ==== Sys2Proof/Machine/HostCommands.lean ====
section
/-! DEFINITION. The commands that touch no pin: Ping (R122) and Unknown (R128). -/

namespace Sys2Proof.Machine

/-- `DoPing()` (R122). -/
def execPing (s : State) : Host.Outcome State Fault Refusal :=
  .next (respond pingResponse s)

/-- `DoUnknown()` (R128): NAK, whatever the byte. -/
def execUnknown (_b : Byte) (s : State) : Host.Outcome State Fault Refusal :=
  .next (reportUnknownCommand s)

end Sys2Proof.Machine
end

