-- ==== Sys2Proof/Machine/Transport.lean ====
section
/-! DEFINITION. The bit-level transport (41_bit_transport.md). -/

namespace Sys2Proof.Machine

/-- `exchangeBit(b)` (R90) with the settle waits of R91. -/
def exchangeBit (b : Bit) (s : State) : Bit × State :=
  let s := pinWrite .dout (.ofBit b) s
  let s := wait .settle s
  let s := pinWrite .clk .high s
  let s := wait .settle s
  let s := pinWrite .clk .low s
  let s := wait .settle s
  let (l, s) := pinRead .din s
  (l.toBit, s)

/-- `receiveBit()` (R92). -/
def receiveBit (s : State) : Bit × State := exchangeBit false s

/-- `sendBit(b)` (R93): the sample is taken and dropped. -/
def sendBit (b : Bit) (s : State) : State := (exchangeBit b s).2

end Sys2Proof.Machine
end

