-- ==== Sys2Proof/Machine/Codec.lean ====
section
/-! DEFINITION. The packet codec (42_packet_codec.md). -/

namespace Sys2Proof.Machine

/-- The loop of R100 over i = n − 1 down to 0: bit i of d goes out and the bit received goes into bit i of the data
received so far. -/
def exchangeData (d : Word) : Nat → Word → State → Word × State
  | 0, got, s => (got, s)
  | i + 1, got, s =>
    let (b, s) := exchangeBit (bitOf d i) s
    exchangeData d i (insertBit got i b) s

/-- `exchangePacket(d)` (R100): the status transfer with outbound 0, then bits 15 down to 0. -/
def exchangePacket (d : Word) (s : State) : Packet × State :=
  let (status, s) := exchangeBit false s
  let (data, s) := exchangeData d Config.dataBits 0 s
  ({ status := status, data := data }, s)

/-- `sendPacket(d)` (R102): the same exchange, its packet dropped. -/
def sendPacket (d : Word) (s : State) : State := (exchangePacket d s).2

/-- `receivePacket()` (R103): the exchange of the zero word. -/
def receivePacket (s : State) : Packet × State := exchangePacket 0 s

end Sys2Proof.Machine
end

