-- ==== Sys2Proof/Machine/PacketCommands.lean ====
section
/-! DEFINITION. The commands that exchange a packet: SendReceive (R125), Send (R126) and Receive (R127). The payload
has been read by the fetch (R52; log 11). -/

namespace Sys2Proof.Machine

/-- `DoSendReceive()` after its two HostReads (R125). -/
def execSendReceive (d : Word) (s : State) : Host.Outcome State Fault Refusal :=
  let (p, s) := exchangePacket d s
  .next (respond (dataResponse p) s)

/-- `DoSend()` after its two HostReads (R126). -/
def execSend (d : Word) (s : State) : Host.Outcome State Fault Refusal :=
  .next (respond ackResponse (sendPacket d s))

/-- `DoReceive()` (R127). -/
def execReceive (s : State) : Host.Outcome State Fault Refusal :=
  let (p, s) := receivePacket s
  .next (respond (dataResponse p) s)

end Sys2Proof.Machine
end

