-- ==== Sys2Proof/Machine/Dispatch.lean ====
section
/-! DEFINITION. The dispatcher's case on the command (R120): one arm per row of the opcode table. -/

namespace Sys2Proof.Machine

/-- One command run to completion, its response included (R48, R120). -/
def exec (i : Instr) (s : State) : Host.Outcome State Fault Refusal :=
  match i with
  | .ping => Sys2Proof.Machine.execPing s
  | .breakpoint => Sys2Proof.Machine.execBreakpoint s
  | .reset => Sys2Proof.Machine.execReset s
  | .sendReceive d => Sys2Proof.Machine.execSendReceive d s
  | .send d => Sys2Proof.Machine.execSend d s
  | .receive => Sys2Proof.Machine.execReceive s
  | .unknown b => Sys2Proof.Machine.execUnknown b s

end Sys2Proof.Machine
end

