-- ==== Sys2Proof/Machine/Fetch.lean ====
section
/-! DEFINITION. Reading a frame from the input stream (R52, R62, R120): its HostReads, and the hold when the stream
runs out (R129). -/

namespace Sys2Proof.Machine

/-- What reading a frame gives. -/
inductive Fetch where
  /-- A whole frame was read; the state is after its last HostRead. -/
  | ready (i : Instr) (s : State)
  /-- The stream ran out; the state is the one that waits for the next byte. -/
  | held (s : State)
  deriving DecidableEq, Repr

/-- The bytes of the current frame that have been read already, from CMD and TXD (R29, R30). -/
def pendingFrame (s : State) : List Byte :=
  match s.disp with
  | .idle => []
  | .payloadHi => [s.cmd]
  | .payloadLo => [s.cmd, highByte s.txd]
  | .xfer _ _ => []
  | .dbg _ => []
  | .resp _ => []

/-- HostRead n times, or until the stream is empty. -/
def readBytes : Nat → State → State
  | 0, s => s
  | n + 1, s =>
    match hostRead s with
    | none => s
    | some (_, s) => readBytes n s

/-- The sub-state and registers of a frame whose next byte is missing (R29, R129). -/
def enterHold (why : DecodeReject) (s : State) : State :=
  match why with
  | .noCommandByte => s
  | .noPayloadHigh c => { s with disp := .payloadHi, cmd := c }
  | .noPayloadLow c h => { s with disp := .payloadLo, cmd := c, txd := withHighByte h s.txd }

/-- The next frame: all its bytes are read before any of its actions (R52), and a missing byte is a hold with the bytes
before it consumed (R129). -/
def fetch (s : State) : Fetch :=
  match decode (pendingFrame s ++ s.input) with
  | .ok (i, rest) => .ready i (readBytes (s.input.length - rest.length) s)
  | .error why => .held (enterHold why (readBytes s.input.length s))

end Sys2Proof.Machine
end

