-- ==== Sys2Proof/Machine/SubSteps.lean ====
section
/-! DEFINITION. The action-level machine: one step per sub-state of R29, over the transient registers of R30. A bit
transfer's step is one step of R90 with the wait that follows it; a debug-entry step is one action of R111; a response
step is one HostWrite (log 15). Every pin operation is asked for under the guard of R155. -/

namespace Sys2Proof.Machine

/-- The sub-state after command byte c has been read (R29, R62, R120). -/
def afterCommandByte (c : Byte) : SubState :=
  if c = 0x50#8 then .resp pingResponse
  else if c = 0x42#8 then .dbg 1
  else if c = 0x52#8 then .dbg 1
  else if carriesPayload c then .payloadHi
  else if c = 0x72#8 then .xfer 0 .drive
  else .resp nakResponse

/-- TXD after command byte c has been read: the word `r` sends, 0x0000 (R30, R103). DESIGN CHOICE (log 4): R30 gives the
word and not the moment it is written, nor any value before the payload of `S` and `s` or in the other commands; here
it is written with the command byte, and elsewhere TXD keeps what it held. -/
def txdAfterCommandByte (c : Byte) (txd : Word) : Word := if c = 0x72#8 then 0x0000#16 else txd

/-- The response of the packet commands: `s` drops the packet, `S` and `r` send it (R125 to R127). -/
def packetResponse (c : Byte) (p : Packet) : List Byte :=
  if c = 0x73#8 then ackResponse else dataResponse p

/-- The bit received in transfer k goes into STS or into bit 16 − k of RXD (R30, R100). -/
def storeBit (k : Nat) (b : Bit) (s : State) : State :=
  if k = 0 then { s with sts := b } else { s with rxd := insertBit s.rxd (16 - k) b }

/-- After the sample of transfer k: the next transfer, or after the last the response (R29, R100). -/
def nextTransfer (k : Fin 17) (s : State) : State :=
  if h : k.val + 1 < 17 then { s with disp := .xfer ⟨k.val + 1, h⟩ .drive }
  else { s with disp := .resp (packetResponse s.cmd { status := s.sts, data := s.rxd }) }

/-- One step of R90 in transfer k. The bit driven is one of TXD, which the command has written before transfer 0 (R30):
the payload of `S` and `s`, 0x0000 for `r` (`txdAfterCommandByte`, log 4). -/
def transferStep (k : Fin 17) (ph : Phase) (s : State) : Host.Outcome State Fault Refusal :=
  match ph with
  | .drive =>
    andThen (perform (.write .dout (.ofBit (outboundBit s.txd k.val))) s) fun s =>
      .next { wait .settle s with disp := .xfer k .raise }
  | .raise =>
    andThen (perform (.write .clk .high) s) fun s => .next { wait .settle s with disp := .xfer k .lower }
  | .lower =>
    andThen (perform (.write .clk .low) s) fun s => .next { wait .settle s with disp := .xfer k .sample }
  | .sample =>
    guarded (.read .din)
      (let (l, s) := pinRead .din s
       nextTransfer k (storeBit k.val l.toBit s))

/-- Action n of R111, counted from 1; `none` at the positions it does not have: 0, and those after the last action. -/
def debugRequest (withReset : Bool) (n : Nat) : Option Request :=
  match n with
  | 0 => none
  | i + 1 => (debugSequence withReset)[i]?

/-- Action n of the debug-mode entry that the command byte asks for (R111), then the next action or the response.
DESIGN CHOICE (log 16): at a position that R111 does not have, DBG(0) or one after the last action, which no command
reaches, no action is performed and the response follows. -/
def debugStep (n : Nat) (s : State) : Host.Outcome State Fault Refusal :=
  let withReset := s.cmd == 0x52#8
  let next : SubState := if n < (debugSequence withReset).length then .dbg (n + 1) else .resp ackResponse
  match debugRequest withReset n with
  | some q => andThen (perform q s) fun s => .next { s with disp := next }
  | none => .next { s with disp := .resp ackResponse }

/-- The next response byte; with the last one the command ends (R22, R29). -/
def responseStep (q : List Byte) (s : State) : Host.Outcome State Fault Refusal :=
  match q with
  | [] => .next (retire s)
  | [b] => .next (retire (hostWrite b s))
  | b :: rest => .next { hostWrite b s with disp := .resp rest }

/-- One step of the action-level machine (R29). A HostRead on an empty stream holds: nothing changes (log 2). When the
transient registers are written is the model's choice (R30; log 4). -/
def microStep (s : State) : Host.Outcome State Fault Refusal :=
  match s.disp with
  | .idle =>
    match hostRead s with
    | none => .next s
    | some (c, s) => .next { s with cmd := c, txd := txdAfterCommandByte c s.txd, disp := afterCommandByte c }
  | .payloadHi =>
    match hostRead s with
    | none => .next s
    | some (h, s) => .next { s with txd := withHighByte h s.txd, disp := .payloadLo }
  | .payloadLo =>
    match hostRead s with
    | none => .next s
    | some (l, s) => .next { s with txd := withLowByte l s.txd, disp := .xfer 0 .drive }
  | .xfer k ph => transferStep k ph s
  | .dbg n => debugStep n s
  | .resp q => responseStep q s

/-- A number of action-level steps. -/
def microRun : Nat → State → Host.Outcome State Fault Refusal
  | 0, s => .next s
  | n + 1, s => andThen (microStep s) (microRun n)

/-- How many action-level steps the frame of an instruction takes, its HostReads among them. -/
def microCount : Instr → Nat
  | .ping => 1 + 5
  | .breakpoint => 1 + 5 + 1
  | .reset => 1 + 10 + 1
  | .sendReceive _ => 3 + 68 + 4
  | .send _ => 3 + 68 + 1
  | .receive => 1 + 68 + 4
  | .unknown _ => 1 + 1

/-- The dispatcher waits in HostRead (R29, R129). -/
def SubState.waitsForHost : SubState → Bool
  | .idle => true
  | .payloadHi => true
  | .payloadLo => true
  | .xfer _ _ => false
  | .dbg _ => false
  | .resp _ => false

/-- Action-level steps until the dispatcher waits in HostRead, at most n of them. -/
def runToHostRead : Nat → State → Host.Outcome State Fault Refusal
  | 0, s => .next s
  | n + 1, s => if s.disp.waitsForHost then .next s else andThen (microStep s) (runToHostRead n)

/-- Enough action-level steps to end any command from the sub-state: 68 for a packet, 10 for a debug-mode entry, 4
for a response, and the bytes of a response under way. -/
def stepsToEnd : SubState → Nat
  | .idle => 0
  | .payloadHi => 0
  | .payloadLo => 0
  | .xfer _ _ => 72
  | .dbg _ => 11
  | .resp q => q.length + 1

/-- The command under way is run to its end (R29, R48; log 14). -/
def finishCommand (s : State) : Host.Outcome State Fault Refusal := runToHostRead (stepsToEnd s.disp) s

end Sys2Proof.Machine
end

