-- ==== Sys2Proof/Machine/Step.lean ====
section
/-! DEFINITION. One step of the machine: one command of the dispatcher loop (R120), and the placing of a frame for the
host's questions. -/

namespace Sys2Proof.Machine

/-- The next frame is read and run to completion, or the machine holds in HostRead (R120, R129; log 2). A command that
the state is inside of is run to its end (log 14). -/
def step (s : State) : Host.Outcome State Fault Refusal :=
  if s.disp.waitsForHost then
    match fetch s with
    | .ready i s => exec i s
    | .held s => .next s
  else finishCommand s

/-- The state with the frame of a table row's bits at the head of the input stream and the dispatcher idle, so that the
next step reads and runs exactly that frame (log 12). -/
def State.withFetchWord (s : State) (nbits w : Nat) : State :=
  { s with input := frameBytes nbits w ++ s.input, disp := .idle }

end Sys2Proof.Machine
end

