-- ==== Sys2Proof/Machine/HostAgent.lean ====
section
/-! DEFINITION. The host as an agent (R138, R147 (b)): it appends bytes to the input stream at any time. -/

namespace Sys2Proof.Machine

/-- The host sends bytes; they wait in order behind those already sent (R31, R138). -/
def hostSend (bytes : List Byte) (s : State) : State := { s with input := s.input ++ bytes }

end Sys2Proof.Machine
end

