-- ==== Sys2Proof/Machine/ResetSequence.lean ====
section
/-! DEFINITION. The reset sequence (R160) from the state at power-up. -/

namespace Sys2Proof.Machine

/-- A machine at power-up: any pins, nothing read, written or performed yet, the environment as at reset. -/
def State.powerUp (pins : Pins) : State where
  pins := pins
  disp := .idle
  cmd := 0
  txd := 0
  sts := false
  rxd := 0
  input := []
  output := []
  target := .free
  draws := 0
  trace := []

/-- `Reset()` (R160): each output level is written before its line becomes an output. -/
def resetSequence (s : State) : State :=
  let s := pinConfigure .clk .output (pinWrite .clk .low s)
  let s := pinConfigure .dout .output (pinWrite .dout .low s)
  let s := pinConfigure .din .input s
  let s := pinConfigure .bkpt .input (pinWrite .bkpt .low s)
  let s := pinConfigure .rst .input (pinWrite .rst .low s)
  { s with disp := .idle }

end Sys2Proof.Machine
end

