-- ==== Sys2Proof/Machine/RunOf.lean ====
section
/-! DEFINITION. The behaviour of one command as a function of the frame and the DIN samples (R130), in closed form: the
traces of R97, R101 and R111 and the responses of R65. -/

namespace Sys2Proof.Machine

/-- The actions of one bit transfer (R90, R97). -/
def transferActions (out : Bit) (sample : Level) : List Action :=
  [.pinWrite .dout (.ofBit out), .wait .settle, .pinWrite .clk .high, .wait .settle,
   .pinWrite .clk .low, .wait .settle, .pinRead .din sample]

/-- The low n bits of a word, the most significant first. -/
def wordBits (d : Word) : Nat → List Bit
  | 0 => []
  | n + 1 => bitOf d n :: wordBits d n

/-- The DOUT values of a packet in order: 0, d[15], …, d[0] (R69, R101). -/
def outboundBits (d : Word) : List Bit := false :: wordBits d Config.dataBits

/-- The actions of a sequence of bit transfers. -/
def transfersActions : List Bit → List Level → List Action
  | [], _ => []
  | _, [] => []
  | b :: bs, l :: ls => transferActions b l ++ transfersActions bs ls

/-- A data bit shifted in at the least significant end. -/
def shiftIn (got : Word) (sample : Level) : Word := (got <<< 1) ||| (if sample.toBit then 1#16 else 0#16)

/-- The packet of the samples: the status first, then the data bits, most significant first (R44, R100). -/
def packetOfSamples : List Level → Packet
  | [] => { status := false, data := 0 }
  | l :: ls => { status := l.toBit, data := ls.foldl shiftIn 0 }

/-- The trace entry of a request that returns no value. -/
def Request.asAction : Request → List Action
  | .configure r d => [.pinConfigure r d]
  | .write r l => [.pinWrite r l]
  | .read _ => []
  | .wait t => [.wait t]
  | .hostRead => []
  | .hostWrite b => [.hostWrite b]

/-- The actions of debug-mode entry (R111). -/
def debugActions (withReset : Bool) : List Action := (debugSequence withReset).flatMap Request.asAction

/-- The word a frame clocks out, for the commands that exchange a packet (R69). -/
def sentWord : Instr → Option Word
  | .ping => none
  | .breakpoint => none
  | .reset => none
  | .sendReceive d => some d
  | .send d => some d
  | .receive => some 0
  | .unknown _ => none

/-- The bits a frame clocks out, one DIN sample for each (R69, R130). -/
def sentBits (i : Instr) : List Bit := (sentWord i).elim [] outboundBits

/-- The pin-and-wait trace of a frame (R130). -/
def runActions (i : Instr) (samples : List Level) : List Action :=
  match i with
  | .ping => []
  | .breakpoint => debugActions false
  | .reset => debugActions true
  | .sendReceive d => transfersActions (outboundBits d) samples
  | .send d => transfersActions (outboundBits d) samples
  | .receive => transfersActions (outboundBits 0) samples
  | .unknown _ => []

/-- The response bytes of a frame (R65, R130). -/
def runResponse (i : Instr) (samples : List Level) : List Byte :=
  match i with
  | .ping => pingResponse
  | .breakpoint => ackResponse
  | .reset => ackResponse
  | .sendReceive _ => dataResponse (packetOfSamples samples)
  | .send _ => ackResponse
  | .receive => dataResponse (packetOfSamples samples)
  | .unknown _ => nakResponse

/-- The samples a target gives for a sequence of bits on DOUT, the first at draw n (R85). -/
def Target.samples : Target → Nat → List Bit → List Level
  | _, _, [] => []
  | t, n, b :: bs => t.sample n (.ofBit b) :: (Target.sampled t).samples (n + 1) bs

/-- A target after n samples. -/
def Target.after : Nat → Target → Target
  | 0, t => t
  | n + 1, t => Target.after n t.sampled

/-- The DIN samples of a frame run from state s (R85, R130). -/
def samplesOf (i : Instr) (s : State) : List Level := s.target.samples s.draws (sentBits i)

/-- What one action does to the pins (R81, R82). -/
def Action.onPins : Action → Pins → Pins
  | .pinConfigure r d, p => p.configure r d
  | .pinWrite r l, p => p.write r l
  | .pinRead _ _, p => p
  | .wait _, p => p
  | .hostRead _, p => p
  | .hostWrite _, p => p

/-- The pins after a sequence of actions. -/
def replay (actions : List Action) (p : Pins) : Pins := actions.foldl (fun p a => a.onPins p) p

/-- How many DIN samples a frame takes: 17 for `S`, `s` and `r`, none otherwise (R130). -/
def sampleCount (i : Instr) : Nat := (sentWord i).elim 0 fun _ => Config.packetBits

/-- The state after a whole frame has run: its actions and its response are in the trace, the pins are what the actions
leave, the target has delivered the samples, and the command is over (R22, R52, R130). -/
def afterFrame (i : Instr) (s : State) : State :=
  let samples := samplesOf i s
  retire
    { s with
      pins := replay (runActions i samples) s.pins
      output := s.output ++ runResponse i samples
      target := s.target.after (sampleCount i)
      draws := s.draws + sampleCount i
      trace := s.trace ++ runActions i samples ++ (runResponse i samples).map .hostWrite }

end Sys2Proof.Machine
end

