-- ==== Sys2Proof/Machine/Timing.lean ====
section
/-! DEFINITION. Time (R7, R14, R150). The core keeps no time (R151), so time stamps are no part of State: they are an
assignment to the actions of a trace, constrained by the order and by the waits only. -/

namespace Sys2Proof.Machine

/-- The time that must pass after the start of an action before the next one: the interval of a wait, else none
(R150). -/
def holdAfter (dur : Interval → Nat) : Action → Nat
  | .wait t => dur t
  | .pinConfigure _ _ => 0
  | .pinWrite _ _ => 0
  | .pinRead _ _ => 0
  | .hostRead _ => 0
  | .hostWrite _ => 0

/-- Time stamps that never decrease and obey the lower bounds of the waits, with no upper bound (R7, R14, R150). -/
def Admissible (dur : Interval → Nat) : List (Action × Nat) → Prop
  | [] => True
  | [_] => True
  | (a, t) :: (b, u) :: rest => t + holdAfter dur a ≤ u ∧ Admissible dur ((b, u) :: rest)

/-- The time stamps the machine's own durations admit (R9, R150): those of `Config.duration`, which have no value. -/
def AdmissibleHere (stamps : List (Action × Nat)) : Prop := Admissible Config.duration stamps

/-- The minimum duration of a trace: the sum of its waits (R180). -/
def minDuration (dur : Interval → Nat) (actions : List Action) : Nat :=
  (actions.map (holdAfter dur)).sum

end Sys2Proof.Machine
end

