-- ==== Sys2Proof/Safety.lean ====
section
/-! DEFINITION. What counts as a good state and a good trace: the invariants of R27, the states of R129 and R131, and
the hazards of R170 to R174. -/

namespace Sys2Proof.Machine

/-- R27 (a): CLK and DOUT are outputs, DIN is an input. -/
def fixedDirections (p : Pins) : Bool :=
  p.dir.clk == .output && p.dir.dout == .output && p.dir.din == .input

/-- R27 (b): the output levels of BKPT and RST are LOW. -/
def latchesLow (p : Pins) : Bool := p.lat.bkpt == .low && p.lat.rst == .low

/-- R27 (c): CLK is LOW and BKPT and RST are released. -/
def atRest (p : Pins) : Bool := p.lat.clk == .low && p.dir.bkpt == .input && p.dir.rst == .input

/-- The level of CLK before a step of R90. -/
def clockBefore : Phase → Level
  | .drive => .low
  | .raise => .low
  | .lower => .high
  | .sample => .low

/-- The direction of BKPT before action n of debug-mode entry (R111, R113). -/
def breakpointBefore (withReset : Bool) (n : Nat) : Dir :=
  if 2 ≤ n ∧ n < (debugSequence withReset).length then .output else .input

/-- The direction of RST before action n of debug-mode entry (R111, R113). -/
def resetLineBefore (withReset : Bool) (n : Nat) : Dir :=
  if withReset = true ∧ 5 ≤ n ∧ n ≤ 7 then .output else .input

/-- What the pins and the transient registers are in each sub-state (R22, R27 (c), R29, R30). -/
def subStateOk (s : State) : Bool :=
  match s.disp with
  | .idle => atRest s.pins && s.cmd == 0 && s.txd == 0 && s.sts == false && s.rxd == 0
  | .payloadHi => atRest s.pins && carriesPayload s.cmd && s.txd == 0 && s.sts == false && s.rxd == 0
  | .payloadLo => atRest s.pins && carriesPayload s.cmd && lowByte s.txd == 0 && s.sts == false && s.rxd == 0
  | .xfer _ ph =>
    s.pins.lat.clk == clockBefore ph && s.pins.dir.bkpt == .input && s.pins.dir.rst == .input &&
      (carriesPayload s.cmd || (s.cmd == 0x72#8 && s.txd == 0))
  | .dbg n =>
    s.pins.lat.clk == .low && (s.cmd == 0x42#8 || s.cmd == 0x52#8) &&
      (1 ≤ n && n ≤ (debugSequence (s.cmd == 0x52#8)).length) &&
      s.pins.dir.bkpt == breakpointBefore (s.cmd == 0x52#8) n &&
      s.pins.dir.rst == resetLineBefore (s.cmd == 0x52#8) n
  | .resp q => atRest s.pins && !q.isEmpty

/-- The invariant of every reachable state, between and inside commands (R27). -/
def State.good (s : State) : Bool := fixedDirections s.pins && latchesLow s.pins && subStateOk s

/-- The dispatcher waits in HostRead and the input stream is empty: no core step until the host sends (R120, R129). -/
def State.held (s : State) : Bool := s.disp.waitsForHost && s.input.isEmpty

/-- The quiescent state: idle with an empty input stream (R131). -/
def State.quiescent (s : State) : Bool := s.disp == .idle && s.input.isEmpty

/-- A run held inside a frame, a hang (R129, R155). -/
def State.hung (s : State) : Bool := s.held && !(s.disp == .idle)

/-- The bytes the core has written, in order. -/
def writtenBytes : List Action → List Byte
  | [] => []
  | .hostWrite b :: rest => b :: writtenBytes rest
  | _ :: rest => writtenBytes rest

/-- The bytes the core has read, in order. -/
def readBytesOf : List Action → List Byte
  | [] => []
  | .hostRead b :: rest => b :: readBytesOf rest
  | _ :: rest => readBytesOf rest

/-- The trace accounts for the state: the pins are what its pin actions leave, the output stream is what its HostWrites
wrote (R7, R23, R31). `start` is the pin state at power-up. -/
def State.explainedBy (s : State) (start : Pins) : Prop :=
  replay s.trace start = s.pins ∧ writtenBytes s.trace = s.output

/-- Whether an action is one the core performs after reset (R24, R26, R83, R155). -/
def Action.isCore : Action → Bool
  | .pinConfigure r d => (Request.configure r d).isCore
  | .pinWrite r l => (Request.write r l).isCore
  | .pinRead r _ => (Request.read r).isCore
  | .wait _ => true
  | .hostRead _ => true
  | .hostWrite _ => true

/-- Every DIN sample comes directly after the clock fall of its transfer and the settle wait (R170). -/
def sampleAfterFall : List Action → Bool
  | [] => true
  | .pinRead _ _ :: _ => false
  | .pinWrite .clk .low :: .wait .settle :: .pinRead .din _ :: rest => sampleAfterFall rest
  | _ :: rest => sampleAfterFall rest

/-- A line is released or driven LOW, never HIGH (R174). -/
def neverHigh (r : Role) (p : Pins) : Bool := p.dir.get r == .input || p.lat.get r == .low

/-- The role a pin action names. -/
def Action.role : Action → Option Role
  | .pinConfigure r _ => some r
  | .pinWrite r _ => some r
  | .pinRead r _ => some r
  | .wait _ => none
  | .hostRead _ => none
  | .hostWrite _ => none

/-- The GPIO line a pin action touches, by PIN_MAP (R23, R50). -/
def Action.gpio (a : Action) : Option Nat := a.role.map Config.pinMap

/-- The clock pulses of a trace: its rising edges (R101). -/
def clockRises (actions : List Action) : Nat := actions.count (.pinWrite .clk .high)

/-- A PinWrite, of any role. -/
def Action.isPinWrite : Action → Bool
  | .pinConfigure _ _ => false
  | .pinWrite _ _ => true
  | .pinRead _ _ => false
  | .wait _ => false
  | .hostRead _ => false
  | .hostWrite _ => false

/-- A settle wait (R91). -/
def Action.isSettleWait : Action → Bool
  | .pinConfigure _ _ => false
  | .pinWrite _ _ => false
  | .pinRead _ _ => false
  | .wait t => t == .settle
  | .hostRead _ => false
  | .hostWrite _ => false

/-- A sample of DIN. -/
def Action.isDinRead : Action → Bool
  | .pinConfigure _ _ => false
  | .pinWrite _ _ => false
  | .pinRead r _ => r == .din
  | .wait _ => false
  | .hostRead _ => false
  | .hostWrite _ => false

/-- The levels written to DOUT, in order (R69, R101). -/
def doutLevels : List Action → List Level
  | [] => []
  | .pinWrite .dout l :: rest => l :: doutLevels rest
  | _ :: rest => doutLevels rest

/-- What a recognized frame writes last, and an Unknown one: ACK, or NAK (R121). -/
def closingByte : Instr → Byte
  | .ping => Config.ack
  | .breakpoint => Config.ack
  | .reset => Config.ack
  | .sendReceive _ => Config.ack
  | .send _ => Config.ack
  | .receive => Config.ack
  | .unknown _ => Config.nak

/-- How many bytes a response has, its ACK or NAK included: the lengths of R65. -/
def responseLength : Instr → Nat
  | .ping => 5
  | .breakpoint => 1
  | .reset => 1
  | .sendReceive _ => 4
  | .send _ => 1
  | .receive => 4
  | .unknown _ => 1

end Sys2Proof.Machine
end

