-- ==== Sys2Proof/Certificates/Slice0/Obligations.lean ====
section
/-! DEFINITION. The statements for the provers, in the order of OBLIGATIONS.json: encodings, the pin primitives, the bit
transport, the packet codec, debug-mode entry, the commands, the loop and its holds, reset, invariants, timing. -/

open Sys2Proof Sys2Proof.Machine

/-! Encodings -/

/-- Decoding gives back every well-formed frame, whatever bytes follow it (R60 to R64, R68). -/
def Obligations.DecodeOfEncode : Prop :=
  ∀ (i : Instr) (rest : List Byte), i.wellFormed = true → decode (encode i ++ rest) = .ok (i, rest)

/-- What the decoder reads is a well-formed frame and stood at the head of the bytes, byte for byte (R60 to R64). -/
def Obligations.EncodeOfDecode : Prop :=
  ∀ (bs : List Byte) (i : Instr) (rest : List Byte),
    decode bs = .ok (i, rest) → i.wellFormed = true ∧ bs = encode i ++ rest

/-- The decoder rejects nothing but an incomplete frame: no byte, or `S` or `s` with fewer than two bytes after it
(R62, R68, R141 (a)). -/
def Obligations.DecodeRejectsOnlyIncompleteFrames : Prop :=
  ∀ bs : List Byte,
    (∃ why, decode bs = .error why) ↔
      bs = [] ∨ ∃ c, (c = 0x53#8 ∨ c = 0x73#8) ∧ (bs = [c] ∨ ∃ h, bs = [c, h])

/-- R62: the command byte alone decides the frame length, 3 for 0x53 and 0x73 and 1 for every other byte, and that many
bytes are taken. -/
def Obligations.CommandByteDecidesLength : Prop :=
  (∀ c : Byte, frameLength c = if c = 0x53#8 ∨ c = 0x73#8 then 3 else 1) ∧
    ∀ (c : Byte) (bs : List Byte) (i : Instr) (rest : List Byte),
      decode (c :: bs) = .ok (i, rest) → (c :: bs).length = frameLength c + rest.length

/-- R68: every byte outside the six is Unknown, that is the five listed ranges of 250 values; each is one 1-byte frame
answered by NAK alone. -/
def Obligations.OtherBytesAreUnknown : Prop :=
  (∀ (b : Byte) (rest : List Byte),
    (b.toNat ≤ 0x41 ∨ (0x43 ≤ b.toNat ∧ b.toNat ≤ 0x4F) ∨ b.toNat = 0x51 ∨ (0x54 ≤ b.toNat ∧ b.toNat ≤ 0x71) ∨
        0x74 ≤ b.toNat) ↔
      decode (b :: rest) = .ok (.unknown b, rest)) ∧
    ((List.range 256).filter fun n => !isCommandByte (BitVec.ofNat 8 n)).length = 250 ∧
    ∀ (b : Byte) (s : State), ∃ t, exec (.unknown b) s = .next t ∧ t.output = s.output ++ [Config.nak]

/-- R42 and R63: the payload after `S` and `s` is big-endian, `b1 * 256 + b2`. -/
def Obligations.PayloadIsBigEndian : Prop :=
  ∀ (h l : Byte) (rest : List Byte),
    (payloadWord h l).toNat = h.toNat * 256 + l.toNat ∧
      decode (0x53#8 :: h :: l :: rest) = .ok (.sendReceive (payloadWord h l), rest) ∧
      decode (0x73#8 :: h :: l :: rest) = .ok (.send (payloadWord h l), rest)

/-- Words written out from R61 decode to the commands they stand for; case is significant (R64, TV-X1 to TV-X14). -/
def Obligations.WrittenFramesDecode : Prop :=
  decode [0x50#8] = .ok (.ping, []) ∧
    decode [0x42#8] = .ok (.breakpoint, []) ∧
    decode [0x52#8] = .ok (.reset, []) ∧
    decode [0x53#8, 0x12#8, 0x34#8] = .ok (.sendReceive 0x1234#16, []) ∧
    decode [0x73#8, 0xAB#8, 0xCD#8] = .ok (.send 0xABCD#16, []) ∧
    decode [0x72#8] = .ok (.receive, []) ∧
    decode [0x00#8, 0x50#8] = .ok (.unknown 0x00#8, [0x50#8]) ∧
    decode [0x70#8] = .ok (.unknown 0x70#8, []) ∧
    decode [0x62#8] = .ok (.unknown 0x62#8, [])

/-! Parameters -/

/-- The marker is STATUS_TRUE for status 1 and STATUS_FALSE for status 0, and the two differ (R66); ACK differs from NAK,
which R67 marks as the spec's own choice (D12) and which is built into `Config.nak` (log 8). -/
def Obligations.MarkersAndAcksDiffer : Prop :=
  (∀ status : Bit, marker status = if status = true then Config.statusTrue else Config.statusFalse) ∧
    Config.statusTrue ≠ Config.statusFalse ∧ Config.ack ≠ Config.nak

/-- PIN_MAP binds the five roles to five different lines, so two pin actions touch one line exactly when they name one
role (R9, R23, R50). -/
def Obligations.RolesHaveTheirOwnLines : Prop :=
  (∀ r q : Role, Config.pinMap r = Config.pinMap q → r = q) ∧
    ∀ a b : Action, a.role ≠ none → (a.gpio = b.gpio ↔ a.role = b.role)

/-! The pin primitives -/

/-- PinConfigure sets the direction of its role and nothing else; the line then carries the output level, or a level the
environment decides, numbered by the model's draws (R25, R81; logs 6 and 19). -/
def Obligations.PinConfigureSetsDirection : Prop :=
  ∀ (r : Role) (d : Dir) (s : State),
    (∀ q, (pinConfigure r d s).pins.dir.get q = if q = r then d else s.pins.dir.get q) ∧
      pinConfigure r d s =
        { s with
          pins := { s.pins with dir := (pinConfigure r d s).pins.dir }
          trace := s.trace ++ [.pinConfigure r d] } ∧
      lineLevel r (pinConfigure r .output s) = s.pins.lat.get r ∧
      lineLevel r (pinConfigure r .input s) = envLevel r s

/-- PinWrite sets the output level of its role and nothing else; an output line then carries it (R82). The last clause,
that an input line keeps the level and carries it when it becomes an output, is what R82 marks as the spec's own choice
(D10; log 18). -/
def Obligations.PinWriteSetsLevel : Prop :=
  ∀ (r : Role) (l : Level) (s : State),
    (∀ q, (pinWrite r l s).pins.lat.get q = if q = r then l else s.pins.lat.get q) ∧
      pinWrite r l s =
        { s with
          pins := { s.pins with lat := (pinWrite r l s).pins.lat }
          trace := s.trace ++ [.pinWrite r l] } ∧
      (s.pins.dir.get r = .output → lineLevel r (pinWrite r l s) = l) ∧
      lineLevel r (pinConfigure r .output (pinWrite r l s)) = l

/-- PinRead answers the level the core drives, or the environment's, and changes no pin, register or stream (R49 (b),
R83). That an output line reads as the core's own level is what R83 marks as the spec's own choice (log 18); the level
of an input line is a draw of the model, numbered by `draws` (logs 6 and 19). -/
def Obligations.PinReadSamplesLine : Prop :=
  ∀ (r : Role) (s : State),
    (pinRead r s).1 = lineLevel r s ∧
      (s.pins.dir.get r = .output → (pinRead r s).1 = s.pins.lat.get r) ∧
      (s.pins.dir.get r = .input → (pinRead r s).1 = envLevel r s) ∧
      ∃ draws target, (pinRead r s).2 =
        { s with draws := draws, target := target, trace := s.trace ++ [.pinRead r (pinRead r s).1] }

/-- R84: Assert is PinConfigure(OUT) then PinWrite(LOW), Release is PinConfigure(IN); with the level LOW, the line is LOW
from the first of the two actions and the second changes no pin. -/
def Obligations.AssertDrivesLowAtOnce : Prop :=
  ∀ (r : Role) (s : State),
    assertLine r s = pinWrite r .low (pinConfigure r .output s) ∧
      releaseLine r s = pinConfigure r .input s ∧
      (s.pins.lat.get r = .low →
        lineLevel r (pinConfigure r .output s) = .low ∧ (assertLine r s).pins = (pinConfigure r .output s).pins ∧
          (assertLine r s).trace = s.trace ++ [.pinConfigure r .output, .pinWrite r .low])

/-- The guard refuses PinConfigure on CLK, DOUT or DIN, PinWrite(BKPT, HIGH), PinWrite(RST, HIGH) and PinRead of a role
other than DIN, the examples of R155, and any PinWrite on DIN, which is DEDUCED from R82 (log 17). Every other request
answers a next state; for HostRead on an empty stream, where R120 gives the core no step, that is the same state by the
model's choice (log 2). -/
def Obligations.GuardRefusesForeignOperations : Prop :=
  ∀ (q : Request) (s : State),
    (((∃ d, q = .configure .clk d ∨ q = .configure .dout d ∨ q = .configure .din d) ∨
        q = .write .bkpt .high ∨ q = .write .rst .high ∨ (∃ l, q = .write .din l) ∨ ∃ r, r ≠ .din ∧ q = .read r) →
      perform q s = .refused (.notCoreAction q)) ∧
    (¬((∃ d, q = .configure .clk d ∨ q = .configure .dout d ∨ q = .configure .din d) ∨
        q = .write .bkpt .high ∨ q = .write .rst .high ∨ (∃ l, q = .write .din l) ∨ ∃ r, r ≠ .din ∧ q = .read r) →
      ∃ t, perform q s = .next t)

/-! The bit transport -/

/-- R97: each exchangeBit is exactly 7 actions, 3 PinWrite, 3 Wait and 1 PinRead, with no PinConfigure and no host
action; in the order of R90, whatever the pin state. -/
def Obligations.ExchangeBitIsSevenActions : Prop :=
  ∀ (b : Bit) (s : State),
    ∃ l, (exchangeBit b s).1 = l.toBit ∧
      (exchangeBit b s).2.trace = s.trace ++
        [.pinWrite .dout (.ofBit b), .wait .settle, .pinWrite .clk .high, .wait .settle,
         .pinWrite .clk .low, .wait .settle, .pinRead .din l]

/-- With DIN an input, exchangeBit returns the target's level after the clock fall, leaves DOUT at the bit sent and CLK
LOW, and changes nothing else of the core (R90, R91). That this level is a function of `draws`, and that the next state
holds one more draw and the target sampled once, is the model's choice (logs 6 and 7). -/
def Obligations.ExchangeBitResult : Prop :=
  ∀ (b : Bit) (s : State), s.pins.dir.din = .input →
    (exchangeBit b s).1 = (s.target.sample s.draws (.ofBit b)).toBit ∧
      (exchangeBit b s).2 =
        { s with
          pins := { s.pins with lat := { s.pins.lat with dout := .ofBit b, clk := .low } }
          target := s.target.sampled
          draws := s.draws + 1
          trace := s.trace ++ transferActions b (s.target.sample s.draws (.ofBit b)) }

/-- R92 and R93: receiveBit is exchangeBit(0), so DOUT is left LOW; sendBit leaves exactly what exchangeBit leaves, its
sample included. -/
def Obligations.BitVariantsShareTheTransfer : Prop :=
  ∀ (b : Bit) (s : State),
    receiveBit s = exchangeBit false s ∧ (receiveBit s).2.pins.lat.dout = .low ∧ sendBit b s = (exchangeBit b s).2

/-! The packet codec -/

/-- R106: insertion of bit i sets that bit and keeps the others; extraction is `(d >> i) & 1`. -/
def Obligations.BitInsertionIsExact : Prop :=
  (∀ (v : Word) (i j : Nat) (b : Bit), i < 16 → bitOf (insertBit v i b) j = if j = i then b else bitOf v j) ∧
    ∀ (v : Word) (i : Nat), bitOf v i = ((v >>> i) &&& 1#16 == 1#16)

/-- The packet of 17 samples, whatever word goes out: the status is sample 0 and data[i] is sample 16 − i (R100). The last
clause, that exactly those levels are gone from the script, is the model's choice: the target is data in State, and each
sample takes one level of a script (log 7). -/
def Obligations.PacketIsItsSamples : Prop :=
  ∀ (d : Word) (s : State) (samples more : List Level),
    samples.length = 17 → s.target = .script (samples ++ more) → s.pins.dir.din = .input →
      (∀ l, samples[0]? = some l → (exchangePacket d s).1.status = l.toBit) ∧
        (∀ (i : Nat) (l : Level), i < 16 → samples[16 - i]? = some l →
          bitOf (exchangePacket d s).1.data i = l.toBit) ∧
        (exchangePacket d s).2.target = .script more

/-- R101: exchangePacket is the seven actions of 17 bit transfers, of the bits 0, d[15], …, d[0], with nothing between
them: 119 actions of which 51 PinWrite, 51 Wait and 17 PinRead(DIN), 17 clock pulses, and DOUT values 0, d[15], …, d[0];
whatever the pin state. -/
def Obligations.PacketTraceHas119Actions : Prop :=
  ∀ (d : Word) (s : State), ∃ new : List Action,
    (exchangePacket d s).2.trace = s.trace ++ new ∧
      (∃ samples : List Level, samples.length = 17 ∧ new = transfersActions (outboundBits d) samples) ∧
      (outboundBits d = false :: (List.range 16).map fun j => bitOf d (15 - j)) ∧ new.length = 119 ∧
      new.countP Action.isPinWrite = 51 ∧ new.countP Action.isSettleWait = 51 ∧ new.countP Action.isDinRead = 17 ∧
      clockRises new = 17 ∧ doutLevels new = .low :: (List.range 16).map fun j => .ofBit (bitOf d (15 - j))

/-- R102 and R103: sendPacket leaves exactly what exchangePacket leaves, all its samples taken; receivePacket is
exchangePacket(0), and drives DOUT LOW in every transfer. -/
def Obligations.PacketVariantsShareTheExchange : Prop :=
  ∀ (d : Word) (s : State),
    sendPacket d s = (exchangePacket d s).2 ∧ receivePacket s = exchangePacket 0#16 s ∧
      ∃ new : List Action, (receivePacket s).2.trace = s.trace ++ new ∧
        ∀ l, Action.pinWrite .dout l ∈ new → l = .low

/-- R104: for 0x8000 DOUT is HIGH on transfer 1 alone and for 0x0001 on transfer 16 alone; a target HIGH on transfer 1
alone gives data 0x8000, on transfer 16 alone 0x0001. -/
def Obligations.MostSignificantBitFirst : Prop :=
  (∀ k, k < 17 → ((outboundBit 0x8000#16 k = true ↔ k = 1) ∧ (outboundBit 0x0001#16 k = true ↔ k = 16))) ∧
    (∀ (d : Word) (k : Nat), k < 17 → (outboundBits d)[k]? = some (outboundBit d k)) ∧
    ∀ (d : Word) (s : State), s.pins.dir.din = .input →
      (s.target = .script (.low :: .high :: List.replicate 15 .low) → (exchangePacket d s).1.data = 0x8000#16) ∧
        (s.target = .script (List.replicate 16 .low ++ [.high]) → (exchangePacket d s).1.data = 0x0001#16)

/-- R94 and R105: under Loopback, exchangeBit(b) returns b, and exchangePacket(d) = (status 0, data d) for every word d. -/
def Obligations.LoopbackReturnsWord : Prop :=
  ∀ (b : Bit) (d : Word) (s : State), s.target = .loopback → s.pins.dir.din = .input →
    (exchangeBit b s).1 = b ∧ (exchangePacket d s).1 = { status := false, data := d }

/-! Debug-mode entry -/

/-- R111 and R113: the action traces of debug-mode entry, 5 actions without Reset, none naming RST, and 10 with it; there
RST is an output exactly after actions 4 to 6 and BKPT exactly after actions 1 to 8, so Reset is asserted after Breakpoint
and released before it. -/
def Obligations.ResetPulsesInsideBreakpoint : Prop :=
  (∀ s : State,
    (enterDebugMode false s).trace = s.trace ++
      [.pinConfigure .bkpt .output, .pinWrite .bkpt .low, .wait .bkptAssert,
       .pinConfigure .bkpt .input, .wait .bkptRelease] ∧
    (enterDebugMode true s).trace = s.trace ++
      [.pinConfigure .bkpt .output, .pinWrite .bkpt .low, .wait .bkptAssert,
       .pinConfigure .rst .output, .pinWrite .rst .low, .wait .rstAssert,
       .pinConfigure .rst .input, .wait .rstRelease,
       .pinConfigure .bkpt .input, .wait .bkptRelease] ∧
    (enterDebugMode false s).trace = s.trace ++ debugActions false ∧
    (enterDebugMode true s).trace = s.trace ++ debugActions true) ∧
  (∀ a ∈ debugActions false, a.role ≠ some .rst) ∧
    ∀ (p : Pins), p.dir.bkpt = .input → p.dir.rst = .input → ∀ n : Nat,
      ((replay ((debugActions true).take n) p).dir.rst = .output ↔ 4 ≤ n ∧ n ≤ 6) ∧
        ((replay ((debugActions true).take n) p).dir.bkpt = .output ↔ 1 ≤ n ∧ n ≤ 8)

/-- Debug-mode entry reads no pin and no host byte and touches neither CLK, DOUT nor DIN: it does the same to states that
differ in the target, the draws and the input stream (R115). -/
def Obligations.DebugEntryHasNoFeedback : Prop :=
  ∀ (withReset : Bool) (s : State) (target : Target) (draws : Nat) (input : List Byte),
    enterDebugMode withReset { s with target := target, draws := draws, input := input } =
        { enterDebugMode withReset s with target := target, draws := draws, input := input } ∧
      ∀ a ∈ debugActions withReset, a.role ≠ some .clk ∧ a.role ≠ some .dout ∧ a.role ≠ some .din

/-! The commands -/

/-- Ping writes its payload and ACK and touches no pin (R122); nothing else changes but the end of the command. In this
and the other completion statements `retire` ends the command, and that it leaves the transient registers 0 is the
model's choice (log 4). -/
def Obligations.PingCompletes : Prop :=
  ∀ s : State,
    exec .ping s = .next (retire
      { s with
        output := s.output ++ [Config.pingPayload 0, Config.pingPayload 1, Config.pingPayload 2, Config.pingPayload 3, Config.ack]
        trace := s.trace ++
          [.hostWrite (Config.pingPayload 0), .hostWrite (Config.pingPayload 1), .hostWrite (Config.pingPayload 2),
           .hostWrite (Config.pingPayload 3), .hostWrite Config.ack] })

/-- R123: Breakpoint runs debug-mode entry without Reset and writes ACK; BKPT ends released with its level LOW, RST and
every other pin are as before (`retire`: log 4). -/
def Obligations.BreakpointCompletes : Prop :=
  ∀ s : State,
    exec .breakpoint s = .next (retire
      { s with
        pins := { dir := { s.pins.dir with bkpt := .input }, lat := { s.pins.lat with bkpt := .low } }
        output := s.output ++ [Config.ack]
        trace := s.trace ++
          [.pinConfigure .bkpt .output, .pinWrite .bkpt .low, .wait .bkptAssert,
           .pinConfigure .bkpt .input, .wait .bkptRelease, .hostWrite Config.ack] })

/-- R124: Reset runs debug-mode entry with Reset and writes ACK; BKPT and RST end released with their levels LOW, every
other pin is as before (`retire`: log 4). -/
def Obligations.ResetCompletes : Prop :=
  ∀ s : State,
    exec .reset s = .next (retire
      { s with
        pins :=
          { dir := { s.pins.dir with bkpt := .input, rst := .input }
            lat := { s.pins.lat with bkpt := .low, rst := .low } }
        output := s.output ++ [Config.ack]
        trace := s.trace ++
          [.pinConfigure .bkpt .output, .pinWrite .bkpt .low, .wait .bkptAssert,
           .pinConfigure .rst .output, .pinWrite .rst .low, .wait .rstAssert,
           .pinConfigure .rst .input, .wait .rstRelease,
           .pinConfigure .bkpt .input, .wait .bkptRelease, .hostWrite Config.ack] })

/-- SendReceive with its payload read: the packet's 17 transfers, then marker, data high byte, data low byte and ACK; DOUT
ends at d[0], CLK LOW, every other pin as before, and 17 draws of the target are used (R125). The registers after it, the
count of draws and the target as data are the model's choices (logs 4, 6 and 7). -/
def Obligations.SendReceiveCompletes : Prop :=
  ∀ (d : Word) (s : State), s.pins.dir.din = .input →
    exec (.sendReceive d) s = .next (retire
      { s with
        pins := { s.pins with lat := { s.pins.lat with clk := .low, dout := .ofBit (bitOf d 0) } }
        target := s.target.after 17
        draws := s.draws + 17
        output := s.output ++
          [marker (packetOfSamples (s.target.samples s.draws (outboundBits d))).status,
           highByte (packetOfSamples (s.target.samples s.draws (outboundBits d))).data,
           lowByte (packetOfSamples (s.target.samples s.draws (outboundBits d))).data, Config.ack]
        trace := s.trace ++ transfersActions (outboundBits d) (s.target.samples s.draws (outboundBits d)) ++
          [.hostWrite (marker (packetOfSamples (s.target.samples s.draws (outboundBits d))).status),
           .hostWrite (highByte (packetOfSamples (s.target.samples s.draws (outboundBits d))).data),
           .hostWrite (lowByte (packetOfSamples (s.target.samples s.draws (outboundBits d))).data),
           .hostWrite Config.ack] })

/-- Send with its payload read: the same 17 transfers, the reply dropped, then ACK alone (R126; the model's choices: logs
4, 6 and 7). -/
def Obligations.SendCompletes : Prop :=
  ∀ (d : Word) (s : State), s.pins.dir.din = .input →
    exec (.send d) s = .next (retire
      { s with
        pins := { s.pins with lat := { s.pins.lat with clk := .low, dout := .ofBit (bitOf d 0) } }
        target := s.target.after 17
        draws := s.draws + 17
        output := s.output ++ [Config.ack]
        trace := s.trace ++ transfersActions (outboundBits d) (s.target.samples s.draws (outboundBits d)) ++
          [.hostWrite Config.ack] })

/-- R127: Receive clocks 17 zeros, then writes marker, data high byte, data low byte and ACK (the model's choices: logs 4,
6 and 7). -/
def Obligations.ReceiveCompletes : Prop :=
  ∀ s : State, s.pins.dir.din = .input →
    exec .receive s = .next (retire
      { s with
        pins := { s.pins with lat := { s.pins.lat with clk := .low, dout := .low } }
        target := s.target.after 17
        draws := s.draws + 17
        output := s.output ++
          [marker (packetOfSamples (s.target.samples s.draws (List.replicate 17 false))).status,
           highByte (packetOfSamples (s.target.samples s.draws (List.replicate 17 false))).data,
           lowByte (packetOfSamples (s.target.samples s.draws (List.replicate 17 false))).data, Config.ack]
        trace := s.trace ++
          transfersActions (List.replicate 17 false) (s.target.samples s.draws (List.replicate 17 false)) ++
          [.hostWrite (marker (packetOfSamples (s.target.samples s.draws (List.replicate 17 false))).status),
           .hostWrite (highByte (packetOfSamples (s.target.samples s.draws (List.replicate 17 false))).data),
           .hostWrite (lowByte (packetOfSamples (s.target.samples s.draws (List.replicate 17 false))).data),
           .hostWrite Config.ack] })

/-- R128: an Unknown byte writes NAK alone and touches no pin (`retire`: log 4). -/
def Obligations.UnknownCompletes : Prop :=
  ∀ (b : Byte) (s : State),
    exec (.unknown b) s = .next (retire
      { s with output := s.output ++ [Config.nak], trace := s.trace ++ [.hostWrite Config.nak] })

/-- The end of a command leaves the dispatcher idle and no transient value, and changes nothing else (R20, R22; the
value 0 of a register outside a command is the model's choice, log 4). That exec leaves the input stream as it is rests
on R52, by which the payload's HostReads come first, and on log 11, by which the fetch does them and not exec. -/
def Obligations.CommandsLeaveNoTransientState : Prop :=
  ∀ (i : Instr) (s t : State), exec i s = .next t →
    t.disp = .idle ∧ t.cmd = 0#8 ∧ t.txd = 0#16 ∧ t.sts = false ∧ t.rxd = 0#16 ∧ t.input = s.input ∧
      (∀ u : State, retire u = { u with disp := .idle, cmd := 0#8, txd := 0#16, sts := false, rxd := 0#16 })

/-- The response of a recognized command ends with its one ACK, that of an Unknown byte is one NAK, and the responses are
5, 1, 1, 4, 1, 4 and 1 bytes long (R65, R121). The HostWrites of the response come after every other action of the
command, and those others write no byte to the host (R52, the spec's decision D13). -/
def Obligations.ResponsesAreFramed : Prop :=
  ∀ (i : Instr) (s t : State), exec i s = .next t →
    ∃ body : List Byte,
      t.output = s.output ++ body ++ [closingByte i] ∧ body.length + 1 = responseLength i ∧
        ∃ actions : List Action, t.trace = s.trace ++ actions ++ (body ++ [closingByte i]).map .hostWrite ∧
          writtenBytes actions = []

/-- SV4 and R125 under Loopback: `S d` answers STATUS_FALSE, the payload's two bytes and ACK; `r` answers STATUS_FALSE,
two zero bytes and ACK (R127). -/
def Obligations.LoopbackResponses : Prop :=
  ∀ (d : Word) (s : State), s.target = .loopback → s.pins.dir.din = .input →
    (∃ t, exec (.sendReceive d) s = .next t ∧
      t.output = s.output ++ [Config.statusFalse, highByte d, lowByte d, Config.ack]) ∧
    ∃ t, exec .receive s = .next t ∧ t.output = s.output ++ [Config.statusFalse, 0x00#8, 0x00#8, Config.ack]

/-- The whole behaviour of a frame is a function of the frame and its DIN samples, 17 for `S`, `s` and `r` and none
otherwise; two runs with the same samples add the same actions and the same bytes, whatever came before (R130). What
`afterFrame` holds beyond R130 is the model's choice: the registers after a command (log 4), the count of draws (log 6)
and the target as data (log 7). -/
def Obligations.ResponseIsFunctionOfFrameAndSamples : Prop :=
  (∀ (i : Instr) (s : State), s.pins.dir.din = .input →
    exec i s = .next (afterFrame i s) ∧ (samplesOf i s).length = sampleCount i ∧
      (sampleCount i = 17 ∨ sampleCount i = 0)) ∧
  ∀ (i : Instr) (s t : State), s.pins.dir.din = .input → t.pins.dir.din = .input → samplesOf i s = samplesOf i t →
    ∃ actions response s' t',
      exec i s = .next s' ∧ exec i t = .next t' ∧
        s'.trace = s.trace ++ actions ++ response.map .hostWrite ∧ s'.output = s.output ++ response ∧
        t'.trace = t.trace ++ actions ++ response.map .hostWrite ∧ t'.output = t.output ++ response

/-! The loop -/

/-- When the frame at the head of the input stream decodes to i, a step from idle is exec of i at the state whose stream
has lost exactly the frame's bytes, each by a HostRead (R52, R120). -/
def Obligations.StepRunsDecodedFrame : Prop :=
  ∀ (i : Instr) (rest : List Byte) (s : State), s.disp = .idle → decode s.input = .ok (i, rest) →
    step s = exec i { s with input := rest, trace := s.trace ++ (encode i).map .hostRead }

/-- R52: every HostRead of a frame comes before its pin actions and waits, and every HostWrite after them. -/
def Obligations.ReadsThenPinsThenWrites : Prop :=
  ∀ (i : Instr) (rest : List Byte) (s : State), s.disp = .idle → decode s.input = .ok (i, rest) →
    ∃ t pins response,
      step s = .next t ∧
        t.trace = s.trace ++ (encode i).map .hostRead ++ pins ++ response.map .hostWrite ∧
        (∀ a ∈ pins, ∀ b, a ≠ .hostRead b ∧ a ≠ .hostWrite b) ∧ t.output = s.output ++ response

/-- No state makes the machine stop: every step and every action-level step answers a next state, never a fault or a
refusal. No command ends in an error and the core performs no guarded operation (R140, R141, R155). Two parts are the
model's choices: a held state answers a next state, itself, where R129 gives a held run no step of the core (log 2), and
a sub-state that no command reaches goes on (log 16). -/
def Obligations.NothingStopsTheMachine : Prop :=
  ∀ s : State, (∃ t, step s = .next t) ∧ ∃ t, microStep s = .next t

/-- A step changes nothing exactly where the dispatcher waits in HostRead on an empty stream; there is no timeout
(R120, R129; that a hold is a step without effect is the model's choice, log 2). -/
def Obligations.HoldsExactlyOnEmptyInput : Prop :=
  ∀ s : State, s.good = true → (step s = .next s ↔ s.held = true)

/-- `S` or `s` without its whole payload: the bytes there are read, no pin is touched, nothing is written, and the
dispatcher waits in PAYLOAD_HI or PAYLOAD_LO (R29, R129; that this is one step, and what TXD holds of the byte not yet
read, is the model's choice, logs 1, 2 and 4). -/
def Obligations.PartialFrameWaits : Prop :=
  ∀ (c h : Byte) (s : State), carriesPayload c = true → s.disp = .idle →
    (s.input = [c] →
      step s = .next { s with input := [], disp := .payloadHi, cmd := c, trace := s.trace ++ [.hostRead c] }) ∧
    (s.input = [c, h] →
      step s = .next
        { s with
          input := [], disp := .payloadLo, cmd := c, txd := payloadWord h (lowByte s.txd)
          trace := s.trace ++ [.hostRead c, .hostRead h] })

/-- A frame whose bytes arrive in pieces runs as if they had arrived together: after a hold, the bytes sent later give
the step that they would have given at once (R129, R138; steps and holds as logs 1, 2 and 14 choose them). The two runs
take the same samples because the model numbers the draws (log 6). -/
def Obligations.SplitFramesRunAlike : Prop :=
  ∀ (s t : State) (why : DecodeReject) (bytes : List Byte), s.disp.waitsForHost = true →
    decode (pendingFrame s ++ s.input) = .error why → step s = .next t →
      step (hostSend bytes t) = step (hostSend bytes s)

/-- Bytes sent while a command runs wait in order and change nothing of it: sending commutes with the command's step and
with every action-level step inside a command (R31, R138). The two runs take the same samples because the model numbers
the draws (log 6). -/
def Obligations.SendingDoesNotDisturbCommand : Prop :=
  (∀ (i : Instr) (s t : State) (bytes : List Byte),
    exec i s = .next t → exec i (hostSend bytes s) = .next (hostSend bytes t)) ∧
  ∀ (s t : State) (bytes : List Byte), s.disp.waitsForHost = false → microStep s = .next t →
    microStep (hostSend bytes s) = .next (hostSend bytes t)

/-- R49 (c) and R31: every step consumes the head of the input stream in order and loses nothing, and only appends to the
trace and the output stream. -/
def Obligations.StreamsAreOrderedAndLossless : Prop :=
  ∀ s t : State, step s = .next t →
    ∃ read new written,
      s.input = read ++ t.input ∧ t.trace = s.trace ++ new ∧ t.output = s.output ++ written ∧
        readBytesOf new = read ∧ writtenBytes new = written

/-! Sub-states -/

/-- The action-level machine of R29 does, sub-state by sub-state, what the command does as a whole: from a good idle state
with a whole frame, its steps end in the state of the one command step (R29, R48, R90 to R128). What one step at either
level is, and so the number `microCount`, is the model's choice (logs 1 and 15), as are the registers' values outside a
command (log 4) and that both machines take the same samples (log 6). -/
def Obligations.SubStatesRefineCommand : Prop :=
  ∀ (i : Instr) (rest : List Byte) (s : State), s.good = true → s.disp = .idle → decode s.input = .ok (i, rest) →
    microRun (microCount i) s = step s

/-- A command seen at any point inside it is run to the same end. The sub-states are those of R29; that a step from inside
a command runs it to its end is the model's choice (log 14), as are the granularity of the points (log 15), the registers'
values outside a command (log 4) and that both runs take the same samples (log 6). -/
def Obligations.CommandResumesAnywhere : Prop :=
  ∀ (i : Instr) (rest : List Byte) (s t : State) (n : Nat), s.good = true → s.disp = .idle →
    decode s.input = .ok (i, rest) → n ≤ microCount i → microRun n s = .next t → t.disp.waitsForHost = false →
      step t = step s

/-! Reset -/

/-- The value of every piece of state after reset, as R33 lists it; the LOW levels there are the spec's own choice (D9;
log 3). -/
def Obligations.ResetValues : Prop :=
  State.reset.pins.dir = { clk := .output, dout := .output, din := .input, bkpt := .input, rst := .input } ∧
    State.reset.pins.lat = { clk := .low, dout := .low, din := .low, bkpt := .low, rst := .low } ∧
    State.reset.disp = .idle ∧ State.reset.input = [] ∧ State.reset.output = []

/-- From power-up the reset sequence performs its nine actions in order and leaves the reset state. R160 marks the order
and the levels as the spec's own choice (D9, D20; log 3); the pins at power-up are any but for the latch of DIN, which the
sequence never writes and which is LOW there by the model's choice (log 24); a line not yet an output keeps the level
written to it by the spec's own choice (D10; log 18); the registers are 0 by log 4 and the nine actions stand in the trace
of `State.reset` by log 13. -/
def Obligations.ResetSequenceEstablishesReset : Prop :=
  ∀ pins : Pins, pins.lat.din = .low →
    resetSequence (State.powerUp pins) = State.reset ∧
      (resetSequence (State.powerUp pins)).trace =
        [.pinWrite .clk .low, .pinConfigure .clk .output, .pinWrite .dout .low, .pinConfigure .dout .output,
         .pinConfigure .din .input, .pinWrite .bkpt .low, .pinConfigure .bkpt .input,
         .pinWrite .rst .low, .pinConfigure .rst .input]

/-- The reset state is good, held and quiescent (R27, R131, R161), and its trace explains it from a power-up with DIN's
latch LOW. That rests on the reset sequence of R160, and on the model's choices: the trace of `State.reset` holds its
nine actions (log 13), DIN's latch is LOW at power-up (log 24), the registers are 0 (log 4). -/
def Obligations.ResetStateIsGood : Prop :=
  State.reset.good = true ∧ State.reset.held = true ∧ State.reset.quiescent = true ∧
    ∀ pins : Pins, pins.lat.din = .low → State.reset.explainedBy pins

/-! Invariants -/

/-- Every action-level step keeps the invariants of the pin state and of the sub-states (R27, R29; the registers' value 0
outside a command is the model's choice, log 4, and the granularity log 15). -/
def Obligations.SubStepsKeepGood : Prop :=
  ∀ s t : State, s.good = true → microStep s = .next t → t.good = true

/-- Every step keeps the invariants and ends where the dispatcher waits in HostRead, with CLK LOW and BKPT and RST
released (R27, R48). The model's choices: what a step is (log 1), that a step from inside a command, in XFER, DBG or
RESP, runs it to its end and so ends there too (log 14), that a held state's step is itself (log 2), and the registers'
value 0 outside a command (log 4). -/
def Obligations.StepsKeepGood : Prop :=
  ∀ s t : State, s.good = true → step s = .next t →
    t.good = true ∧ t.disp.waitsForHost = true ∧ atRest t.pins = true

/-- Every step keeps the trace an explanation of the pins and of the output stream (R7, R23, R31). -/
def Obligations.StepsKeepTraceExact : Prop :=
  ∀ (s t : State) (start : Pins), s.explainedBy start → step s = .next t → t.explainedBy start

/-- R174: BKPT and RST are never driven HIGH, not even between two actions inside a step. -/
def Obligations.BreakpointAndResetNeverDrivenHigh : Prop :=
  ∀ s t : State, s.good = true → step s = .next t →
    ∃ new : List Action, t.trace = s.trace ++ new ∧
      ∀ n : Nat, neverHigh .bkpt (replay (new.take n) s.pins) = true ∧
        neverHigh .rst (replay (new.take n) s.pins) = true

/-- The commands respect R155 and the hazards R170, R172 and R173: every action is one of the core's; DIN is sampled only
directly after the clock fall and its settle wait; a packet command makes 17 clock pulses and changes no direction; the
other commands make no pulse. -/
def Obligations.CommandsRespectHazards : Prop :=
  ∀ (i : Instr) (s t : State), exec i s = .next t →
    ∃ new : List Action, t.trace = s.trace ++ new ∧ (∀ a ∈ new, a.isCore = true) ∧ sampleAfterFall new = true ∧
      clockRises new = sampleCount i ∧
      (sampleCount i ≠ 0 → ∀ r d, Action.pinConfigure r d ∉ new)

/-! Timing -/

/-- In any admissible timing, the time between two actions is at least the sum of the waits from the first up to the
second (R14, R150). -/
def Obligations.TimingsObeyWaits : Prop :=
  ∀ (dur : Interval → Nat) (mid : List (Action × Nat)) (a b : Action) (t u : Nat),
    Admissible dur ((a, t) :: mid ++ [(b, u)]) → t + minDuration dur (a :: mid.map Prod.fst) ≤ u

/-- R95: the timing relations inside one bit transfer. -/
def Obligations.BitTransferTiming : Prop :=
  ∀ (dur : Interval → Nat) (out : Bit) (l : Level) (stamps : List (Action × Nat)),
    Admissible dur stamps → stamps.map Prod.fst = transferActions out l →
      ∀ t1 t2 t3 t4, (stamps.map Prod.snd)[0]? = some t1 → (stamps.map Prod.snd)[2]? = some t2 →
        (stamps.map Prod.snd)[4]? = some t3 → (stamps.map Prod.snd)[6]? = some t4 →
          t1 + dur .settle ≤ t2 ∧ t2 + dur .settle ≤ t3 ∧ t3 + dur .settle ≤ t4

/-- R181: the clock inside a packet: HIGH for at least T_SETTLE, LOW for at least 2 × T_SETTLE, period at least
3 × T_SETTLE; DOUT is held for T_SETTLE after the fall (R96). Transfer j rises at action 7 j + 2 and falls at 7 j + 4. -/
def Obligations.PacketClockTiming : Prop :=
  ∀ (dur : Interval → Nat) (bits : List Bit) (samples : List Level) (stamps : List (Action × Nat)) (j : Nat),
    Admissible dur stamps → stamps.map Prod.fst = transfersActions bits samples →
      j + 1 < bits.length → j + 1 < samples.length →
      ∀ rise fall drive nextRise,
        (stamps.map Prod.snd)[7 * j + 2]? = some rise → (stamps.map Prod.snd)[7 * j + 4]? = some fall →
        (stamps.map Prod.snd)[7 * (j + 1)]? = some drive → (stamps.map Prod.snd)[7 * (j + 1) + 2]? = some nextRise →
          rise + dur .settle ≤ fall ∧ fall + 2 * dur .settle ≤ nextRise ∧ rise + 3 * dur .settle ≤ nextRise ∧
            fall + dur .settle ≤ drive

/-- R114: the timing relations of debug-mode entry, and its duration up to the action after it, 100 ms and 200 ms with
the defaults. -/
def Obligations.DebugEntryTiming : Prop :=
  (∀ (dur : Interval → Nat) (stamps : List (Action × Nat)) (next : Action),
    Admissible dur stamps → stamps.map Prod.fst = debugActions false ++ [next] →
      ∀ a1 a4 last, (stamps.map Prod.snd)[0]? = some a1 → (stamps.map Prod.snd)[3]? = some a4 →
        (stamps.map Prod.snd)[5]? = some last →
          a1 + dur .bkptAssert ≤ a4 ∧ a1 + (dur .bkptAssert + dur .bkptRelease) ≤ last) ∧
  (∀ (dur : Interval → Nat) (stamps : List (Action × Nat)) (next : Action),
    Admissible dur stamps → stamps.map Prod.fst = debugActions true ++ [next] →
      ∀ a1 a4 a7 a9 last, (stamps.map Prod.snd)[0]? = some a1 → (stamps.map Prod.snd)[3]? = some a4 →
        (stamps.map Prod.snd)[6]? = some a7 → (stamps.map Prod.snd)[8]? = some a9 →
        (stamps.map Prod.snd)[10]? = some last →
          a1 + (dur .bkptAssert + dur .rstAssert + dur .rstRelease) ≤ a9 ∧ a4 + dur .rstAssert ≤ a7 ∧
            a1 + dur .bkptAssert ≤ a4 ∧ a7 + dur .rstRelease ≤ a9 ∧
            a1 + (dur .bkptAssert + dur .rstAssert + dur .rstRelease + dur .bkptRelease) ≤ last) ∧
  ∀ tSettle, minDuration (Config.referenceDuration tSettle) (debugActions false) = 100 ∧
    minDuration (Config.referenceDuration tSettle) (debugActions true) = 200

/-- R180: the minimum duration of each command, from the waits of its trace. -/
def Obligations.CommandDurations : Prop :=
  ∀ (dur : Interval → Nat) (i : Instr) (s t : State), exec i s = .next t →
    ∃ new : List Action, t.trace = s.trace ++ new ∧
      minDuration dur new =
        match i with
        | .ping => 0
        | .breakpoint => dur .bkptAssert + dur .bkptRelease
        | .reset => dur .bkptAssert + dur .rstAssert + dur .rstRelease + dur .bkptRelease
        | .sendReceive _ => 51 * dur .settle
        | .send _ => 51 * dur .settle
        | .receive => 51 * dur .settle
        | .unknown _ => 0
end

