-- ==== Sys2Proof/Laws/State.lean ====
section
/-! SUPPORT. What each update of the state leaves in each field; every lemma is true by definition. -/

namespace Sys2Proof.Machine

variable (s : State)

@[simp] theorem record_pins (a : Action) : (s.record a).pins = s.pins := rfl
@[simp] theorem record_disp (a : Action) : (s.record a).disp = s.disp := rfl
@[simp] theorem record_cmd (a : Action) : (s.record a).cmd = s.cmd := rfl
@[simp] theorem record_txd (a : Action) : (s.record a).txd = s.txd := rfl
@[simp] theorem record_sts (a : Action) : (s.record a).sts = s.sts := rfl
@[simp] theorem record_rxd (a : Action) : (s.record a).rxd = s.rxd := rfl
@[simp] theorem record_input (a : Action) : (s.record a).input = s.input := rfl
@[simp] theorem record_output (a : Action) : (s.record a).output = s.output := rfl
@[simp] theorem record_target (a : Action) : (s.record a).target = s.target := rfl
@[simp] theorem record_draws (a : Action) : (s.record a).draws = s.draws := rfl
@[simp] theorem record_trace (a : Action) : (s.record a).trace = s.trace ++ [a] := rfl

@[simp] theorem pinConfigure_pins (r : Role) (d : Dir) : (pinConfigure r d s).pins = s.pins.configure r d := rfl
@[simp] theorem pinConfigure_disp (r : Role) (d : Dir) : (pinConfigure r d s).disp = s.disp := rfl
@[simp] theorem pinConfigure_cmd (r : Role) (d : Dir) : (pinConfigure r d s).cmd = s.cmd := rfl
@[simp] theorem pinConfigure_txd (r : Role) (d : Dir) : (pinConfigure r d s).txd = s.txd := rfl
@[simp] theorem pinConfigure_sts (r : Role) (d : Dir) : (pinConfigure r d s).sts = s.sts := rfl
@[simp] theorem pinConfigure_rxd (r : Role) (d : Dir) : (pinConfigure r d s).rxd = s.rxd := rfl
@[simp] theorem pinConfigure_input (r : Role) (d : Dir) : (pinConfigure r d s).input = s.input := rfl
@[simp] theorem pinConfigure_output (r : Role) (d : Dir) : (pinConfigure r d s).output = s.output := rfl
@[simp] theorem pinConfigure_target (r : Role) (d : Dir) : (pinConfigure r d s).target = s.target := rfl
@[simp] theorem pinConfigure_draws (r : Role) (d : Dir) : (pinConfigure r d s).draws = s.draws := rfl
@[simp] theorem pinConfigure_trace (r : Role) (d : Dir) : (pinConfigure r d s).trace = s.trace ++ [.pinConfigure r d] := rfl

@[simp] theorem pinWrite_pins (r : Role) (l : Level) : (pinWrite r l s).pins = s.pins.write r l := rfl
@[simp] theorem pinWrite_disp (r : Role) (l : Level) : (pinWrite r l s).disp = s.disp := rfl
@[simp] theorem pinWrite_cmd (r : Role) (l : Level) : (pinWrite r l s).cmd = s.cmd := rfl
@[simp] theorem pinWrite_txd (r : Role) (l : Level) : (pinWrite r l s).txd = s.txd := rfl
@[simp] theorem pinWrite_sts (r : Role) (l : Level) : (pinWrite r l s).sts = s.sts := rfl
@[simp] theorem pinWrite_rxd (r : Role) (l : Level) : (pinWrite r l s).rxd = s.rxd := rfl
@[simp] theorem pinWrite_input (r : Role) (l : Level) : (pinWrite r l s).input = s.input := rfl
@[simp] theorem pinWrite_output (r : Role) (l : Level) : (pinWrite r l s).output = s.output := rfl
@[simp] theorem pinWrite_target (r : Role) (l : Level) : (pinWrite r l s).target = s.target := rfl
@[simp] theorem pinWrite_draws (r : Role) (l : Level) : (pinWrite r l s).draws = s.draws := rfl
@[simp] theorem pinWrite_trace (r : Role) (l : Level) : (pinWrite r l s).trace = s.trace ++ [.pinWrite r l] := rfl

@[simp] theorem wait_pins (t : Interval) : (wait t s).pins = s.pins := rfl
@[simp] theorem wait_disp (t : Interval) : (wait t s).disp = s.disp := rfl
@[simp] theorem wait_cmd (t : Interval) : (wait t s).cmd = s.cmd := rfl
@[simp] theorem wait_txd (t : Interval) : (wait t s).txd = s.txd := rfl
@[simp] theorem wait_sts (t : Interval) : (wait t s).sts = s.sts := rfl
@[simp] theorem wait_rxd (t : Interval) : (wait t s).rxd = s.rxd := rfl
@[simp] theorem wait_input (t : Interval) : (wait t s).input = s.input := rfl
@[simp] theorem wait_output (t : Interval) : (wait t s).output = s.output := rfl
@[simp] theorem wait_target (t : Interval) : (wait t s).target = s.target := rfl
@[simp] theorem wait_draws (t : Interval) : (wait t s).draws = s.draws := rfl
@[simp] theorem wait_trace (t : Interval) : (wait t s).trace = s.trace ++ [.wait t] := rfl

@[simp] theorem hostWrite_pins (b : Byte) : (hostWrite b s).pins = s.pins := rfl
@[simp] theorem hostWrite_disp (b : Byte) : (hostWrite b s).disp = s.disp := rfl
@[simp] theorem hostWrite_cmd (b : Byte) : (hostWrite b s).cmd = s.cmd := rfl
@[simp] theorem hostWrite_txd (b : Byte) : (hostWrite b s).txd = s.txd := rfl
@[simp] theorem hostWrite_sts (b : Byte) : (hostWrite b s).sts = s.sts := rfl
@[simp] theorem hostWrite_rxd (b : Byte) : (hostWrite b s).rxd = s.rxd := rfl
@[simp] theorem hostWrite_input (b : Byte) : (hostWrite b s).input = s.input := rfl
@[simp] theorem hostWrite_output (b : Byte) : (hostWrite b s).output = s.output ++ [b] := rfl
@[simp] theorem hostWrite_target (b : Byte) : (hostWrite b s).target = s.target := rfl
@[simp] theorem hostWrite_draws (b : Byte) : (hostWrite b s).draws = s.draws := rfl
@[simp] theorem hostWrite_trace (b : Byte) : (hostWrite b s).trace = s.trace ++ [.hostWrite b] := rfl

@[simp] theorem envAdvance_pins (r : Role) : (envAdvance r s).pins = s.pins := rfl
@[simp] theorem envAdvance_disp (r : Role) : (envAdvance r s).disp = s.disp := rfl
@[simp] theorem envAdvance_cmd (r : Role) : (envAdvance r s).cmd = s.cmd := rfl
@[simp] theorem envAdvance_txd (r : Role) : (envAdvance r s).txd = s.txd := rfl
@[simp] theorem envAdvance_sts (r : Role) : (envAdvance r s).sts = s.sts := rfl
@[simp] theorem envAdvance_rxd (r : Role) : (envAdvance r s).rxd = s.rxd := rfl
@[simp] theorem envAdvance_input (r : Role) : (envAdvance r s).input = s.input := rfl
@[simp] theorem envAdvance_output (r : Role) : (envAdvance r s).output = s.output := rfl
@[simp] theorem envAdvance_target (r : Role) : (envAdvance r s).target = if r = .din then s.target.sampled else s.target := rfl
@[simp] theorem envAdvance_draws (r : Role) : (envAdvance r s).draws = s.draws + 1 := rfl
@[simp] theorem envAdvance_trace (r : Role) : (envAdvance r s).trace = s.trace := rfl

@[simp] theorem retire_pins : (retire s).pins = s.pins := rfl
@[simp] theorem retire_disp : (retire s).disp = .idle := rfl
@[simp] theorem retire_cmd : (retire s).cmd = 0 := rfl
@[simp] theorem retire_txd : (retire s).txd = 0 := rfl
@[simp] theorem retire_sts : (retire s).sts = false := rfl
@[simp] theorem retire_rxd : (retire s).rxd = 0 := rfl
@[simp] theorem retire_input : (retire s).input = s.input := rfl
@[simp] theorem retire_output : (retire s).output = s.output := rfl
@[simp] theorem retire_target : (retire s).target = s.target := rfl
@[simp] theorem retire_draws : (retire s).draws = s.draws := rfl
@[simp] theorem retire_trace : (retire s).trace = s.trace := rfl

@[simp] theorem hostSend_pins (bytes : List Byte) : (hostSend bytes s).pins = s.pins := rfl
@[simp] theorem hostSend_disp (bytes : List Byte) : (hostSend bytes s).disp = s.disp := rfl
@[simp] theorem hostSend_cmd (bytes : List Byte) : (hostSend bytes s).cmd = s.cmd := rfl
@[simp] theorem hostSend_txd (bytes : List Byte) : (hostSend bytes s).txd = s.txd := rfl
@[simp] theorem hostSend_sts (bytes : List Byte) : (hostSend bytes s).sts = s.sts := rfl
@[simp] theorem hostSend_rxd (bytes : List Byte) : (hostSend bytes s).rxd = s.rxd := rfl
@[simp] theorem hostSend_input (bytes : List Byte) : (hostSend bytes s).input = s.input ++ bytes := rfl
@[simp] theorem hostSend_output (bytes : List Byte) : (hostSend bytes s).output = s.output := rfl
@[simp] theorem hostSend_target (bytes : List Byte) : (hostSend bytes s).target = s.target := rfl
@[simp] theorem hostSend_draws (bytes : List Byte) : (hostSend bytes s).draws = s.draws := rfl
@[simp] theorem hostSend_trace (bytes : List Byte) : (hostSend bytes s).trace = s.trace := rfl

@[simp] theorem Pins.configure_lat (r : Role) (d : Dir) (p : Pins) : (p.configure r d).lat = p.lat := rfl
@[simp] theorem Pins.configure_dir (r : Role) (d : Dir) (p : Pins) : (p.configure r d).dir = p.dir.set r d := rfl
@[simp] theorem Pins.write_lat (r : Role) (l : Level) (p : Pins) : (p.write r l).lat = p.lat.set r l := rfl
@[simp] theorem Pins.write_dir (r : Role) (l : Level) (p : Pins) : (p.write r l).dir = p.dir := rfl

end Sys2Proof.Machine

namespace Sys2Proof

variable {α : Type} (p : PerRole α) (v : α)

/-- Reading a role just written. -/
@[simp] theorem PerRole.get_set_self (r : Role) : (p.set r v).get r = v := by cases r <;> rfl

/-- Reading another role than the one written. -/
theorem PerRole.get_set_of_ne {r q : Role} (h : q ≠ r) : (p.set r v).get q = p.get q := by
  cases r <;> cases q <;> first | rfl | exact absurd rfl h

@[simp] theorem PerRole.get_clk : p.get .clk = p.clk := rfl
@[simp] theorem PerRole.get_dout : p.get .dout = p.dout := rfl
@[simp] theorem PerRole.get_din : p.get .din = p.din := rfl
@[simp] theorem PerRole.get_bkpt : p.get .bkpt = p.bkpt := rfl
@[simp] theorem PerRole.get_rst : p.get .rst = p.rst := rfl
@[simp] theorem PerRole.set_clk_clk : (p.set .clk v).clk = v := rfl
@[simp] theorem PerRole.set_clk_dout : (p.set .clk v).dout = p.dout := rfl
@[simp] theorem PerRole.set_clk_din : (p.set .clk v).din = p.din := rfl
@[simp] theorem PerRole.set_clk_bkpt : (p.set .clk v).bkpt = p.bkpt := rfl
@[simp] theorem PerRole.set_clk_rst : (p.set .clk v).rst = p.rst := rfl
@[simp] theorem PerRole.set_dout_clk : (p.set .dout v).clk = p.clk := rfl
@[simp] theorem PerRole.set_dout_dout : (p.set .dout v).dout = v := rfl
@[simp] theorem PerRole.set_dout_din : (p.set .dout v).din = p.din := rfl
@[simp] theorem PerRole.set_dout_bkpt : (p.set .dout v).bkpt = p.bkpt := rfl
@[simp] theorem PerRole.set_dout_rst : (p.set .dout v).rst = p.rst := rfl
@[simp] theorem PerRole.set_din_clk : (p.set .din v).clk = p.clk := rfl
@[simp] theorem PerRole.set_din_dout : (p.set .din v).dout = p.dout := rfl
@[simp] theorem PerRole.set_din_din : (p.set .din v).din = v := rfl
@[simp] theorem PerRole.set_din_bkpt : (p.set .din v).bkpt = p.bkpt := rfl
@[simp] theorem PerRole.set_din_rst : (p.set .din v).rst = p.rst := rfl
@[simp] theorem PerRole.set_bkpt_clk : (p.set .bkpt v).clk = p.clk := rfl
@[simp] theorem PerRole.set_bkpt_dout : (p.set .bkpt v).dout = p.dout := rfl
@[simp] theorem PerRole.set_bkpt_din : (p.set .bkpt v).din = p.din := rfl
@[simp] theorem PerRole.set_bkpt_bkpt : (p.set .bkpt v).bkpt = v := rfl
@[simp] theorem PerRole.set_bkpt_rst : (p.set .bkpt v).rst = p.rst := rfl
@[simp] theorem PerRole.set_rst_clk : (p.set .rst v).clk = p.clk := rfl
@[simp] theorem PerRole.set_rst_dout : (p.set .rst v).dout = p.dout := rfl
@[simp] theorem PerRole.set_rst_din : (p.set .rst v).din = p.din := rfl
@[simp] theorem PerRole.set_rst_bkpt : (p.set .rst v).bkpt = p.bkpt := rfl
@[simp] theorem PerRole.set_rst_rst : (p.set .rst v).rst = v := rfl

/-- Two role records with the same five values are equal. -/
theorem PerRole.ext_of_fields {p q : PerRole α} (hc : p.clk = q.clk) (ho : p.dout = q.dout) (hi : p.din = q.din)
    (hb : p.bkpt = q.bkpt) (hr : p.rst = q.rst) : p = q := by
  cases p; cases q; simp_all

end Sys2Proof
end

