-- ==== Sys2Proof/Laws/Ops.lean ====
section
/-! SUPPORT. For each shared primitive, one lemma that says all it can do; proofs cite these and do not unfold the
primitives. -/

namespace Sys2Proof.Machine

variable {s t : State}

/-- A sample of DIN while DIN is an input: the target's level, one more draw, one action. -/
theorem pinRead_din (h : s.pins.dir.din = .input) :
    pinRead .din s =
      (s.target.sample s.draws s.pins.lat.dout,
       { s with
         draws := s.draws + 1
         target := s.target.sampled
         trace := s.trace ++ [.pinRead .din (s.target.sample s.draws s.pins.lat.dout)] }) := by
  simp [pinRead, h, envLevel, envAdvance, State.record]

/-- A read never changes a pin, a register or a stream; it adds one action, and at most one draw. -/
theorem pinRead_frame (r : Role) (s : State) :
    ∃ n target, (pinRead r s).2 =
      { s with draws := n, target := target, trace := s.trace ++ [.pinRead r (pinRead r s).1] } := by
  cases h : s.pins.dir.get r
  · exact ⟨s.draws + 1, if r = .din then s.target.sampled else s.target, by
      simp [pinRead, h, State.record, envAdvance]⟩
  · exact ⟨s.draws, s.target, by simp [pinRead, h, State.record]⟩

/-- HostRead takes the head of the input stream and adds one action, or the stream is empty. -/
theorem hostRead_cases (s : State) :
    (s.input = [] ∧ hostRead s = none) ∨
      ∃ b rest, s.input = b :: rest ∧
        hostRead s = some (b, { s with input := rest, trace := s.trace ++ [.hostRead b] }) := by
  unfold hostRead
  split
  · exact .inl ⟨by assumption, rfl⟩
  · exact .inr ⟨_, _, by assumption, rfl⟩

/-- Writing bytes appends them to the output stream and their actions to the trace, and does nothing else. -/
theorem hostWriteAll_eq (bytes : List Byte) (s : State) :
    hostWriteAll bytes s =
      { s with
        output := s.output ++ bytes
        trace := s.trace ++ bytes.map .hostWrite } := by
  induction bytes generalizing s with
  | nil => simp [hostWriteAll]
  | cons b bs ih => rw [hostWriteAll, ih]; simp [hostWrite, State.record]

/-- A response appends its bytes and ends the command. -/
theorem respond_eq (bytes : List Byte) (s : State) :
    respond bytes s =
      { s with
        disp := .idle
        cmd := 0
        txd := 0
        sts := false
        rxd := 0
        output := s.output ++ bytes
        trace := s.trace ++ bytes.map .hostWrite } := by
  rw [respond, hostWriteAll_eq]; rfl

/-- An operation of the core goes through the guard. -/
theorem guarded_core {q : Request} (h : q.isCore = true) (t : State) : guarded q t = .next t := by
  simp [guarded, h]

/-- What the guard lets through is an operation of the core, unchanged. -/
theorem guarded_next {q : Request} (h : guarded q s = .next t) : q.isCore = true ∧ t = s := by
  unfold guarded at h
  split at h
  · exact ⟨by assumption, by simpa using h.symm⟩
  · exact absurd h (by simp)

@[simp] theorem andThen_next (f : State → Host.Outcome State Fault Refusal) : andThen (.next s) f = f s := rfl

/-- A chain that answers a next state went through a next state. -/
theorem andThen_cases {o : Host.Outcome State Fault Refusal} {f : State → Host.Outcome State Fault Refusal}
    (h : andThen o f = .next t) : ∃ u, o = .next u ∧ f u = .next t := by
  cases o with
  | next u => exact ⟨u, rfl, h⟩
  | fault r => exact absurd h (by simp [andThen])
  | refused r => exact absurd h (by simp [andThen])

/-- The pins after two sequences of actions. -/
theorem replay_append (a b : List Action) (p : Pins) : replay (a ++ b) p = replay b (replay a p) := by
  simp [replay]

end Sys2Proof.Machine
end

