-- ==== Sys2Proof/Laws/Codec.lean ====
section
/-! SUPPORT. What a bit transfer and a run of data transfers do. -/

namespace Sys2Proof.Machine

variable {s : State}

@[simp] theorem toBit_ofBit (b : Bit) : (Level.ofBit b).toBit = b := by cases b <;> rfl

/-- Insertion sets bit i and keeps the others (R106). -/
theorem insertBit_bit (v : Word) (i j : Nat) (b : Bool) (h : i < 16) :
    (insertBit v i b).getLsbD j = if j = i then b else v.getLsbD j := by
  unfold insertBit
  by_cases hj : j < 16
  · cases b <;> by_cases hji : j = i <;> simp [hj, hji, h] <;> omega
  · rw [if_neg (show j ≠ i by omega), BitVec.getLsbD_of_ge _ _ (by omega), BitVec.getLsbD_of_ge v _ (by omega)]

/-- One bit transfer, while DIN is an input (R90): the sample is the target's while DOUT carries the bit sent. -/
theorem exchangeBit_eq (b : Bit) (h : s.pins.dir.din = .input) :
    exchangeBit b s =
      ((s.target.sample s.draws (.ofBit b)).toBit,
       { s with
         pins := { s.pins with lat := { s.pins.lat with dout := .ofBit b, clk := .low } }
         draws := s.draws + 1
         target := s.target.sampled
         trace := s.trace ++ transferActions b (s.target.sample s.draws (.ofBit b)) }) := by
  simp [exchangeBit, pinRead_din, h, transferActions, pinWrite, wait, State.record, Pins.write, PerRole.set]

/-- What a bit transfer never changes, whatever the directions (R90). -/
theorem exchangeBit_frame (b : Bit) (s : State) :
    ∃ l n target, exchangeBit b s =
      (l.toBit,
       { s with
         pins := { s.pins with lat := { s.pins.lat with dout := .ofBit b, clk := .low } }
         draws := n
         target := target
         trace := s.trace ++ transferActions b l }) := by
  cases h : s.pins.dir.din
  · exact ⟨_, _, _, exchangeBit_eq b h⟩
  · refine ⟨s.pins.lat.din, s.draws, s.target, ?_⟩
    simp [exchangeBit, pinRead, h, transferActions, wait, pinWrite, State.record, Pins.write, PerRole.set]

/-- The state after the transfers of a sequence of bits, while DIN is an input. -/
def afterTransfers (bits : List Bit) (s : State) : State :=
  { s with
    pins := replay (transfersActions bits (s.target.samples s.draws bits)) s.pins
    draws := s.draws + bits.length
    target := s.target.after bits.length
    trace := s.trace ++ transfersActions bits (s.target.samples s.draws bits) }

/-- The data bits received, inserted from bit n − 1 down (R100). -/
def insertSamples : Nat → Word → List Level → Word
  | 0, got, _ => got
  | _ + 1, got, [] => got
  | i + 1, got, l :: ls => insertSamples i (insertBit got i l.toBit) ls

/-- The pins after one transfer. -/
theorem replay_transferActions (b : Bit) (l : Level) (p : Pins) :
    replay (transferActions b l) p = { p with lat := { p.lat with dout := .ofBit b, clk := .low } } := by
  simp [replay, transferActions, Action.onPins, Pins.write, PerRole.set]

/-- The data loop of R100 while DIN is an input: what it receives and what it leaves. -/
theorem exchangeData_eq (d : Word) (n : Nat) (got : Word) (h : s.pins.dir.din = .input) :
    exchangeData d n got s =
      (insertSamples n got (s.target.samples s.draws (wordBits d n)), afterTransfers (wordBits d n) s) := by
  induction n generalizing got s with
  | zero => simp [exchangeData, insertSamples, afterTransfers, wordBits, transfersActions, replay, Target.after]
  | succ i ih =>
    rw [exchangeData, exchangeBit_eq _ h]
    simp only
    rw [ih _ (by simpa using h)]
    simp [insertSamples, afterTransfers, wordBits, Target.samples, transfersActions, replay_append,
      replay_transferActions, Target.after, Nat.add_assoc, Nat.add_comm 1]

/-- The whole exchange while DIN is an input (R100). -/
theorem exchangePacket_eq (d : Word) (h : s.pins.dir.din = .input) :
    exchangePacket d s =
      ({ status := (s.target.sample s.draws .low).toBit
         data := insertSamples 16 0 (s.target.sampled.samples (s.draws + 1) (wordBits d 16)) },
       afterTransfers (outboundBits d) s) := by
  unfold exchangePacket
  rw [exchangeBit_eq _ h]
  simp only
  rw [exchangeData_eq _ _ _ (by simpa using h)]
  simp [Level.ofBit, Config.dataBits, afterTransfers, outboundBits, Target.samples, transfersActions, replay_append,
    replay_transferActions, Target.after, Nat.add_assoc, Nat.add_comm 1]

end Sys2Proof.Machine
end

