-- ==== Sys2Proof/Laws/Decode.lean ====
section
/-! SUPPORT. The word of two bytes and its halves, bit by bit. -/

namespace Sys2Proof

/-- Bit i of the word of two bytes is a bit of the second byte below 8, of the first from 8 on. -/
theorem payloadWord_bit (h l : Byte) (i : Nat) :
    (payloadWord h l).getLsbD i = if i < 8 then l.getLsbD i else h.getLsbD (i - 8) := by
  unfold payloadWord
  by_cases hi : i < 16
  · by_cases h8 : i < 8 <;> simp [hi, h8]
    intro hl
    exact absurd (BitVec.lt_of_getLsbD hl) h8
  · rw [if_neg (by omega), BitVec.getLsbD_of_ge _ i (by omega), BitVec.getLsbD_of_ge h (i - 8) (by omega)]

@[simp] theorem highByte_payloadWord (h l : Byte) : highByte (payloadWord h l) = h := by
  ext i hi
  simp [highByte, payloadWord_bit, hi, BitVec.getLsbD_eq_getElem]

@[simp] theorem lowByte_payloadWord (h l : Byte) : lowByte (payloadWord h l) = l := by
  ext i hi
  simp [lowByte, payloadWord_bit, hi, BitVec.getLsbD_eq_getElem]

@[simp] theorem payloadWord_halves (d : Word) : payloadWord (highByte d) (lowByte d) = d := by
  ext i hi
  rw [← BitVec.getLsbD_eq_getElem, ← BitVec.getLsbD_eq_getElem, payloadWord_bit]
  split
  · rename_i h8
    simp [lowByte, h8]
  · simp [highByte, show i - 8 < 8 by omega, show 8 + (i - 8) = i by omega]

/-- A payload decodes to the frame of its two bytes, or a byte is missing. -/
theorem decodePayload_cases (make : Word → Instr) (c : Byte) (bs : List Byte) :
    (bs = [] ∧ decodePayload make c bs = .error (.noPayloadHigh c)) ∨
      (∃ h, bs = [h] ∧ decodePayload make c bs = .error (.noPayloadLow c h)) ∨
      ∃ h l rest, bs = h :: l :: rest ∧ decodePayload make c bs = .ok (make (payloadWord h l), rest) := by
  match bs with
  | [] => exact .inl ⟨rfl, rfl⟩
  | [h] => exact .inr (.inl ⟨h, rfl, rfl⟩)
  | h :: l :: rest => exact .inr (.inr ⟨h, l, rest, rfl, rfl⟩)

end Sys2Proof
end

