-- ==== Sys2Proof/Laws/PerInstr.lean ====
section
/-! SUPPORT. Facts about every instruction as syntax, one lemma per constructor. -/

namespace Sys2Proof.Laws.FrameShape

/-- A frame begins with its command byte, and when it is well formed that byte decides its length (R60, R62). -/
def Statement (i : Instr) : Prop :=
  (encode i).head? = some (commandByte i) ∧
    (i.wellFormed = true → (encode i).length = frameLength (commandByte i))

theorem ping : Statement .ping := ⟨rfl, fun _ => rfl⟩

theorem breakpoint : Statement .breakpoint := ⟨rfl, fun _ => rfl⟩

theorem reset : Statement .reset := ⟨rfl, fun _ => rfl⟩

theorem sendReceive (d : Word) : Statement (.sendReceive d) := ⟨rfl, fun _ => rfl⟩

theorem send (d : Word) : Statement (.send d) := ⟨rfl, fun _ => rfl⟩

theorem receive : Statement .receive := ⟨rfl, fun _ => rfl⟩

theorem unknown (b : Byte) : Statement (.unknown b) := by
  refine ⟨rfl, fun h => ?_⟩
  have hb : carriesPayload b = false := by
    simp only [Instr.wellFormed, isCommandByte, Bool.not_eq_true', Bool.or_eq_false_iff] at h
    simp [carriesPayload, h]
  simp [encode, frameLength, commandByte, hb]

end Sys2Proof.Laws.FrameShape
end

