-- ==== Sys2Proof/Laws/Steps.lean ====
section
/-! SUPPORT. What the debug-mode entry, the reading of a frame and the guarded primitives do. -/

namespace Sys2Proof.Machine

variable {s t : State}

/-- Debug-mode entry: the actions of R111, the pins they leave, nothing else (R110). -/
theorem enterDebugMode_eq (withReset : Bool) (s : State) :
    enterDebugMode withReset s =
      { s with
        pins := replay (debugActions withReset) s.pins
        trace := s.trace ++ debugActions withReset } := by
  cases withReset <;>
    simp [enterDebugMode, pulseReset, assertLine, releaseLine, pinConfigure, pinWrite, wait, State.record, debugActions,
      debugSequence, Request.asAction, replay, Action.onPins]

/-- The pins after debug-mode entry without Reset: BKPT released with its level LOW, the rest untouched (R110, R113). -/
theorem replay_debugActions_false (p : Pins) :
    replay (debugActions false) p =
      { dir := { p.dir with bkpt := .input }, lat := { p.lat with bkpt := .low } } := by
  simp [debugActions, debugSequence, Request.asAction, replay, Action.onPins, Pins.configure, Pins.write, PerRole.set]

/-- The pins after debug-mode entry with Reset: BKPT and RST released with their levels LOW (R110). -/
theorem replay_debugActions_true (p : Pins) :
    replay (debugActions true) p =
      { dir := { p.dir with bkpt := .input, rst := .input }, lat := { p.lat with bkpt := .low, rst := .low } } := by
  simp [debugActions, debugSequence, Request.asAction, replay, Action.onPins, Pins.configure, Pins.write, PerRole.set]

/-- HostRead n times takes the first n bytes of the input stream in order, and does nothing else (R120). -/
theorem readBytes_eq (n : Nat) (s : State) :
    readBytes n s =
      { s with
        input := s.input.drop n
        trace := s.trace ++ (s.input.take n).map .hostRead } := by
  induction n generalizing s with
  | zero => simp [readBytes]
  | succ n ih =>
    rw [readBytes]
    rcases hostRead_cases s with ⟨hi, hr⟩ | ⟨b, rest, hi, hr⟩
    · rw [hr]; cases s; simp_all
    · rw [hr, hi]; simp [ih]

/-- What one guarded primitive can do: it is an operation of the core, and it changes the pins, the streams, the
environment or the trace, never a register or the sub-state. -/
theorem perform_next {q : Request} (h : perform q s = .next t) :
    q.isCore = true ∧
      ∃ pins input output target draws trace,
        t = { s with
          pins := pins, input := input, output := output, target := target, draws := draws, trace := trace } := by
  cases q with
  | read r =>
    obtain ⟨hc, rfl⟩ := guarded_next h
    obtain ⟨n, target, hr⟩ := pinRead_frame r s
    exact ⟨hc, _, _, _, _, _, _, hr⟩
  | hostRead =>
    obtain ⟨hc, rfl⟩ := guarded_next h
    rcases hostRead_cases s with ⟨_, hr⟩ | ⟨b, rest, _, hr⟩
    · exact ⟨hc, s.pins, s.input, s.output, s.target, s.draws, s.trace, by rw [hr]; rfl⟩
    · exact ⟨hc, s.pins, rest, s.output, s.target, s.draws, _, by rw [hr]; rfl⟩
  | configure r d =>
    obtain ⟨hc, rfl⟩ := guarded_next h
    exact ⟨hc, _, s.input, s.output, s.target, s.draws, _, rfl⟩
  | write r l =>
    obtain ⟨hc, rfl⟩ := guarded_next h
    exact ⟨hc, _, s.input, s.output, s.target, s.draws, _, rfl⟩
  | wait i =>
    obtain ⟨hc, rfl⟩ := guarded_next h
    exact ⟨hc, s.pins, s.input, s.output, s.target, s.draws, _, rfl⟩
  | hostWrite b =>
    obtain ⟨hc, rfl⟩ := guarded_next h
    exact ⟨hc, s.pins, s.input, _, s.target, s.draws, _, rfl⟩

@[simp] theorem txdAfterCommandByte_receive (txd : Word) : txdAfterCommandByte 0x72#8 txd = 0x0000#16 := rfl
@[simp] theorem txdAfterCommandByte_zero (c : Byte) : txdAfterCommandByte c 0x0000#16 = 0x0000#16 := ite_self _
theorem txdAfterCommandByte_other {c : Byte} (h : c ≠ 0x72#8) (txd : Word) : txdAfterCommandByte c txd = txd := if_neg h

@[simp] theorem debugRequest_zero (withReset : Bool) : debugRequest withReset 0 = none := rfl
@[simp] theorem debugRequest_succ (withReset : Bool) (i : Nat) :
    debugRequest withReset (i + 1) = (debugSequence withReset)[i]? := rfl

/-- The request of a position of R111 is one of its sequence. -/
theorem debugRequest_mem {withReset : Bool} {n : Nat} {q : Request} (h : debugRequest withReset n = some q) :
    q ∈ debugSequence withReset := by
  cases n with
  | zero => cases h
  | succ i => exact List.mem_of_getElem? h

/-- What a debug-entry step can do: outside the sequence it performs nothing and goes on to the response; inside, it
performs the action of its position and goes on to the next position, or after the last action to the response. -/
theorem debugStep_cases {n : Nat} (h : debugStep n s = .next t) :
    (debugRequest (s.cmd == 0x52#8) n = none ∧ t = { s with disp := .resp ackResponse }) ∨
      ∃ q u, debugRequest (s.cmd == 0x52#8) n = some q ∧ perform q s = .next u ∧
        t = { u with
          disp := if n < (debugSequence (s.cmd == 0x52#8)).length then .dbg (n + 1) else .resp ackResponse } := by
  simp only [debugStep] at h
  split at h
  · next q hq =>
    obtain ⟨u, hu, hv⟩ := andThen_cases h
    cases hv
    exact .inr ⟨q, u, hq, hu, rfl⟩
  · next hq =>
    cases h
    exact .inl ⟨hq, rfl⟩

end Sys2Proof.Machine
end

