-- ==== Sys2Proof/Tests/Slice0.lean ====
section
/-! SUPPORT. Small checks of the model against words and vectors written out from the spec (TV- and SV- numbers are those
of 95_test_vectors.md), and for each statement with hypotheses a concrete case that meets them all. -/

namespace Sys2Proof.Tests

open Sys2Proof.Machine

set_option maxRecDepth 100000

/-- The reset state with a target and bytes already sent. -/
def begin (t : Target) (bytes : List Byte) : State := { State.reset with target := t, input := bytes }

/-- A view of a next state; none at a fault or a refusal. -/
def view {α : Type} (o : Host.Outcome State Fault Refusal) (f : State → α) : Option α :=
  match o with
  | .next s => some (f s)
  | .fault _ => none
  | .refused _ => none

/-- What a state has done since reset. -/
def since (s : State) : List Action := s.trace.drop State.reset.trace.length

/-- The levels of a target script: 1 is HIGH. -/
def levels (bits : List Nat) : List Level := bits.map fun b => if b = 1 then .high else .low

/-- Target script of TV-C5 and TV-C7: status 1, data 0xBEEF. -/
def beef : Target := .script (levels [1, 1,0,1,1, 1,1,1,0, 1,1,1,0, 1,1,1,1])

/-! Well-formedness -/

theorem test_wellFormed_refuses_each_command_byte :
    [0x50#8, 0x42#8, 0x52#8, 0x53#8, 0x73#8, 0x72#8].map (fun b => (Instr.unknown b).wellFormed) =
      [false, false, false, false, false, false] := by decide

theorem test_wellFormed_accepts_range_ends :
    ([0x00#8, 0x41#8, 0x43#8, 0x4F#8, 0x51#8, 0x54#8, 0x71#8, 0x74#8, 0xFF#8].all
      fun b => (Instr.unknown b).wellFormed) = true := by decide

/-! Decoding: each word written out bit by bit from R61 -/

theorem test_decode_P : decode [0b01010000#8] = .ok (.ping, []) := by decide
theorem test_decode_B : decode [0b01000010#8] = .ok (.breakpoint, []) := by decide
theorem test_decode_R : decode [0b01010010#8] = .ok (.reset, []) := by decide
theorem test_decode_S :
    decode [0b01010011#8, 0b10100101#8, 0b11000011#8] = .ok (.sendReceive 0b1010010111000011#16, []) := by decide
theorem test_decode_s :
    decode [0b01110011#8, 0b10000000#8, 0b00000001#8] = .ok (.send 0b1000000000000001#16, []) := by decide
theorem test_decode_r : decode [0b01110010#8] = .ok (.receive, []) := by decide
theorem test_decode_UNKNOWN : decode [0b01110000#8, 0x50#8] = .ok (.unknown 0x70#8, [0x50#8]) := by decide
theorem test_decode_incomplete :
    decode [] = .error .noCommandByte ∧ decode [0x53#8] = .error (.noPayloadHigh 0x53#8) ∧
      decode [0x73#8, 0x12#8] = .error (.noPayloadLow 0x73#8 0x12#8) := by decide
theorem test_encode_S : encode (.sendReceive 0x1234#16) = [0x53#8, 0x12#8, 0x34#8] := by decide
theorem test_table_words :
    decodeTableWord 8 0x50 = some .ping ∧ decodeTableWord 8 0x53 = some (.sendReceive 0) ∧
      decodeTableWord 24 0x341253 = some (.sendReceive 0x1234#16) ∧
      decodeTableWord 8 0x00 = some (.unknown 0x00#8) := by decide

/-! One step of each command -/

/-- TV-X1. -/
theorem test_P_response : view (step (begin .free [0x50#8])) State.output =
    some [Config.pingPayload 0, Config.pingPayload 1, Config.pingPayload 2, Config.pingPayload 3, Config.ack] := rfl

/-- SV6: no pin is touched. -/
theorem test_P_pins : view (step (begin .free [0x50#8])) State.pins = some State.reset.pins := by decide

/-- TV-X2 and TV-D1. -/
theorem test_B_trace : view (step (begin .free [0x42#8])) since =
    some [.hostRead 0x42#8, .pinConfigure .bkpt .output, .pinWrite .bkpt .low, .wait .bkptAssert,
      .pinConfigure .bkpt .input, .wait .bkptRelease, .hostWrite Config.ack] := rfl

/-- TV-X3 and TV-D2. -/
theorem test_R_trace : view (step (begin .free [0x52#8])) since =
    some [.hostRead 0x52#8, .pinConfigure .bkpt .output, .pinWrite .bkpt .low, .wait .bkptAssert,
      .pinConfigure .rst .output, .pinWrite .rst .low, .wait .rstAssert, .pinConfigure .rst .input, .wait .rstRelease,
      .pinConfigure .bkpt .input, .wait .bkptRelease, .hostWrite Config.ack] := rfl

/-- TV-X4, SV4. -/
theorem test_S_loopback : view (step (begin .loopback [0x53#8, 0x12#8, 0x34#8])) State.output =
    some [Config.statusFalse, 0x12#8, 0x34#8, Config.ack] := rfl

/-- TV-X5 and TV-C5: the reply, and the DOUT sequence of 0xA5C3. -/
theorem test_S_script :
    view (step (begin beef [0x53#8, 0xA5#8, 0xC3#8])) State.output =
        some [Config.statusTrue, 0xBE#8, 0xEF#8, Config.ack] ∧
      view (step (begin beef [0x53#8, 0xA5#8, 0xC3#8])) (fun s => doutLevels (since s)) =
        some (levels [0, 1,0,1,0, 0,1,0,1, 1,1,0,0, 0,0,1,1]) := ⟨rfl, rfl⟩

/-- TV-X6. -/
theorem test_s_response : view (step (begin .free [0x73#8, 0x80#8, 0x00#8])) State.output = some [Config.ack] := rfl

/-- R126: the DOUT sequence of 0xABCD; DOUT stays HIGH after it (P2). -/
theorem test_s_dout :
    view (step (begin .free [0x73#8, 0xAB#8, 0xCD#8])) (fun s => (doutLevels (since s), s.pins.lat.dout)) =
      some (levels [0, 1,0,1,0, 1,0,1,1, 1,1,0,0, 1,1,0,1], .high) := rfl

/-- TV-X7. -/
theorem test_r_script : view (step (begin beef [0x72#8])) State.output =
    some [Config.statusTrue, 0xBE#8, 0xEF#8, Config.ack] := rfl

/-- TV-X8. -/
theorem test_r_loopback : view (step (begin .loopback [0x72#8])) State.output =
    some [Config.statusFalse, 0x00#8, 0x00#8, Config.ack] := rfl

/-- TV-X9 and TV-X15: NAK, and only one byte is consumed. -/
theorem test_UNKNOWN : view (step (begin .free [0x00#8, 0x50#8])) (fun s => (s.output, s.input)) =
    some ([Config.nak], [0x50#8]) := rfl

/-- TV-X16 and TV-X17: held inside a frame, nothing written, no pin touched. -/
theorem test_hold_inside_frame :
    view (step (begin .free [0x53#8])) (fun s => (s.disp, s.held, s.output, s.pins)) =
        some (.payloadHi, true, [], State.reset.pins) ∧
      view (step (begin .free [0x73#8, 0x12#8])) (fun s => (s.disp, s.held, s.output, s.pins)) =
        some (.payloadLo, true, [], State.reset.pins) := by decide

/-- TV-P7: RST is LOW from the first action of Assert. -/
theorem test_assert_reset_line :
    lineLevel .rst (pinConfigure .rst .output State.reset) = .low ∧
      (assertLine .rst State.reset).trace.drop 9 = [.pinConfigure .rst .output, .pinWrite .rst .low] := by decide

/-- TV-B4 and TV-B6. -/
theorem test_exchangeBit :
    (exchangeBit true (begin beef [])).1 = true ∧ (exchangeBit false (begin .loopback [])).1 = false ∧
      (exchangeBit true (begin beef [])).2.pins.lat.dout = .high := by decide

/-- TV-L1: a later receivePacket under Loopback gives zeros. -/
theorem test_loopback_then_receive :
    (receivePacket (exchangePacket 0x1234#16 (begin .loopback [])).2).1 = { status := false, data := 0 } := by decide

/-- The action-level machine reaches the command's end (P1's packet, Loopback). -/
theorem test_substeps_S :
    microRun (microCount (.sendReceive 0x1234#16)) (begin .loopback [0x53#8, 0x12#8, 0x34#8]) =
      step (begin .loopback [0x53#8, 0x12#8, 0x34#8]) := rfl

/-- The positions that R111 does not have, DBG(0) and DBG past the last action, perform nothing (log 16). -/
theorem test_debug_positions_outside :
    debugRequest true 1 = some (.configure .bkpt .output) ∧ debugRequest false 5 = some (.wait .bkptRelease) ∧
      microStep { State.reset with cmd := 0x52#8, disp := .dbg 0 } =
        .next { State.reset with cmd := 0x52#8, disp := .resp ackResponse } ∧
      microStep { State.reset with cmd := 0x42#8, disp := .dbg 6 } =
        .next { State.reset with cmd := 0x42#8, disp := .resp ackResponse } :=
  ⟨by decide, by decide, rfl, rfl⟩

/-- The action-level `r` sends zeros whatever TXD held before (R30, R103, R127). -/
theorem test_receive_clears_txd :
    view (microStep { begin .loopback [0x72#8] with txd := 0xFFFF#16 }) (fun s => (s.disp, s.cmd, s.txd)) =
      some (.xfer 0 .drive, 0x72#8, 0x0000#16) := by decide

/-- A frame placed for the host's questions is the next one run. -/
theorem test_withFetchWord :
    view (step (State.reset.withFetchWord 8 0x53)) (fun s => (s.input, s.trace.take 12)) =
      some ([], State.reset.trace ++ [.hostRead 0x53#8, .hostRead 0x00#8, .hostRead 0x00#8]) := by decide

/-! Cases that meet the hypotheses of the statements -/

/-- A state inside the packet of `r`, after n action-level steps. -/
def inside (n : Nat) : Option State := view (microRun n (begin beef [0x72#8])) id

theorem witness_DecodeOfEncode : (Instr.unknown 0xFF#8).wellFormed = true := by decide
theorem witness_EncodeOfDecode : decode [0x53#8, 0x00#8, 0xFF#8, 0x50#8] = .ok (.sendReceive 0x00FF#16, [0x50#8]) := by decide
theorem witness_CommandByteDecidesLength :
    decode [0x73#8, 0x01#8, 0x02#8] = .ok (.send 0x0102#16, []) ∧ decode [0x52#8] = .ok (.reset, []) := by decide
theorem witness_RolesHaveTheirOwnLines : (Action.pinWrite .clk .low).role ≠ none := by decide
theorem witness_PinWriteSetsLevel : State.reset.pins.dir.get .clk = .output := by decide
theorem witness_PinReadSamplesLine :
    State.reset.pins.dir.get .clk = .output ∧ State.reset.pins.dir.get .din = .input := by decide
theorem witness_AssertDrivesLowAtOnce : State.reset.pins.lat.get .bkpt = .low := by decide
theorem witness_GuardRefusesForeignOperations :
    (∃ d, (Request.configure .clk .input) = .configure .clk d) ∧ Role.rst ≠ .din ∧
      perform (.write .rst .high) State.reset = .refused (.notCoreAction (.write .rst .high)) ∧
      perform (.write .rst .low) State.reset = .next (pinWrite .rst .low State.reset) :=
  ⟨⟨_, rfl⟩, by decide, rfl, rfl⟩
theorem witness_ExchangeBitResult : State.reset.pins.dir.din = .input := by decide
theorem witness_LoopbackReturnsWord :
    (begin .loopback []).target = .loopback ∧ (begin .loopback []).pins.dir.din = .input := by decide
theorem witness_PacketIsItsSamples :
    (levels [1, 1,0,1,1, 1,1,1,0, 1,1,1,0, 1,1,1,1]).length = 17 ∧
      (begin beef []).target = .script (levels [1, 1,0,1,1, 1,1,1,0, 1,1,1,0, 1,1,1,1] ++ []) ∧
      (begin beef []).pins.dir.din = .input ∧
      (levels [1, 1,0,1,1, 1,1,1,0, 1,1,1,0, 1,1,1,1])[16 - 0]? = some .high ∧
      (levels [1, 1,0,1,1, 1,1,1,0, 1,1,1,0, 1,1,1,1])[16 - 15]? = some .high := by decide
theorem witness_BitInsertionIsExact :
    15 < 16 ∧ insertBit 0x0000#16 15 true = 0x8000#16 ∧ insertBit 0xFFFF#16 0 false = 0xFFFE#16 := by decide
theorem witness_OtherBytesAreUnknown :
    ([0x00#8, 0x41#8, 0x43#8, 0x4F#8, 0x51#8, 0x54#8, 0x71#8, 0x74#8, 0xFF#8].all
      fun b => decide (decode [b] = .ok (.unknown b, []))) = true := by decide
theorem witness_MostSignificantBitFirst :
    (0 < 17 ∧ 16 < 17) ∧
    (begin (.script (.low :: .high :: List.replicate 15 .low)) []).target =
        .script (.low :: .high :: List.replicate 15 .low) ∧
      (begin (.script (List.replicate 16 .low ++ [.high])) []).target =
        .script (List.replicate 16 .low ++ [.high]) ∧
      State.reset.pins.dir.din = .input := by decide
theorem witness_ResetPulsesInsideBreakpoint :
    State.reset.pins.dir.bkpt = .input ∧ State.reset.pins.dir.rst = .input := by decide
theorem witness_exec_each_command :
    (∃ t, exec .ping State.reset = .next t) ∧ (∃ t, exec .breakpoint State.reset = .next t) ∧
      (∃ t, exec .reset State.reset = .next t) ∧ (∃ t, exec (.sendReceive 0xFFFF#16) State.reset = .next t) ∧
      (∃ t, exec (.send 0x0001#16) State.reset = .next t) ∧ (∃ t, exec .receive State.reset = .next t) ∧
      ∃ t, exec (.unknown 0x00#8) State.reset = .next t :=
  ⟨⟨_, rfl⟩, ⟨_, rfl⟩, ⟨_, rfl⟩, ⟨_, rfl⟩, ⟨_, rfl⟩, ⟨_, rfl⟩, ⟨_, rfl⟩⟩
theorem witness_ResponseIsFunctionOfFrameAndSamples :
    State.reset.pins.dir.din = .input ∧ (begin beef [0x50#8]).pins.dir.din = .input ∧
      samplesOf .receive (begin beef []) = samplesOf .receive (begin beef [0x50#8]) ∧
      samplesOf .ping State.reset = samplesOf .ping (begin beef []) := by decide
theorem witness_StepRunsDecodedFrame :
    (begin .free [0x50#8, 0x42#8]).disp = .idle ∧
      decode (begin .free [0x50#8, 0x42#8]).input = .ok (.ping, [0x42#8]) := by decide
theorem witness_HoldsExactlyOnEmptyInput :
    State.reset.good = true ∧ State.reset.held = true ∧ (begin .free [0x53#8]).good = true ∧
      (begin .free [0x53#8]).held = false := by decide
theorem witness_PartialFrameWaits :
    carriesPayload 0x53#8 = true ∧ carriesPayload 0x73#8 = true ∧ (begin .free [0x53#8]).disp = .idle ∧
      (begin .free [0x53#8]).input = [0x53#8] ∧ (begin .free [0x73#8, 0x12#8]).input = [0x73#8, 0x12#8] := by decide
theorem witness_SplitFramesRunAlike :
    (begin .free [0x53#8, 0x12#8]).disp.waitsForHost = true ∧
      decode (pendingFrame (begin .free [0x53#8, 0x12#8]) ++ (begin .free [0x53#8, 0x12#8]).input) =
        .error (.noPayloadLow 0x53#8 0x12#8) ∧
      ∃ t, step (begin .free [0x53#8, 0x12#8]) = .next t := ⟨by decide, by decide, ⟨_, rfl⟩⟩
theorem witness_SendingDoesNotDisturbCommand :
    (inside 1).map (fun s => s.disp.waitsForHost) = some false ∧
      ((inside 1).bind fun s => view (microStep s) State.disp) = some (.xfer 0 .raise) := by decide
theorem witness_StreamsAreOrderedAndLossless :
    (∃ t, step (begin .free [0x50#8, 0x42#8]) = .next t) ∧ ∃ t, step (begin .free [0x53#8]) = .next t :=
  ⟨⟨_, rfl⟩, ⟨_, rfl⟩⟩
theorem witness_SubStatesRefineCommand :
    (begin .loopback [0x72#8]).good = true ∧ (begin .loopback [0x72#8]).disp = .idle ∧
      decode (begin .loopback [0x72#8]).input = .ok (.receive, []) := by decide
theorem witness_CommandResumesAnywhere :
    (begin beef [0x72#8]).good = true ∧ 1 ≤ microCount .receive ∧ 70 ≤ microCount .receive ∧
      (inside 1).map (fun s => s.disp.waitsForHost) = some false ∧
      (inside 70).map (fun s => s.disp.waitsForHost) = some false := by decide
theorem witness_ResetSequenceEstablishesReset :
    ({ dir := { clk := .input, dout := .input, din := .output, bkpt := .output, rst := .output }
       lat := { clk := .high, dout := .high, din := .low, bkpt := .high, rst := .high } } : Pins).lat.din = .low := by decide
theorem witness_SubStepsKeepGood :
    (inside 3).map State.good = some true ∧ ((inside 3).bind fun s => view (microStep s) State.good) = some true := by decide
theorem witness_StepsKeepGood :
    (begin .free [0x52#8]).good = true ∧ view (step (begin .free [0x52#8])) State.good = some true ∧
      ((inside 3).bind fun s => view (step s) State.good) = some true := by decide
theorem witness_StepsKeepTraceExact : (begin .free [0x42#8]).explainedBy State.reset.pins := ⟨rfl, rfl⟩
theorem witness_TimingsObeyWaits :
    Admissible (Config.referenceDuration 2) ((.wait .settle, 5) :: [(.wait .bkptAssert, 7)] ++ [(.hostWrite 0x00#8, 60)]) := by
  simp [Admissible, holdAfter, Config.referenceDuration]
theorem witness_BitTransferTiming :
    Admissible (fun _ => 1) ((transferActions true .low).zip [0, 0, 1, 1, 2, 2, 3]) ∧
      ((transferActions true .low).zip [0, 0, 1, 1, 2, 2, 3]).map Prod.fst = transferActions true .low := by
  simp [Admissible, holdAfter, transferActions]
theorem witness_PacketClockTiming :
    Admissible (fun _ => 1) ((transfersActions [false, true] [.low, .high]).zip [0, 0, 1, 1, 2, 2, 3, 3, 3, 4, 4, 5, 5, 6]) ∧
      ((transfersActions [false, true] [.low, .high]).zip [0, 0, 1, 1, 2, 2, 3, 3, 3, 4, 4, 5, 5, 6]).map Prod.fst =
        transfersActions [false, true] [.low, .high] := by
  simp [Admissible, holdAfter, transfersActions, transferActions]
theorem witness_DebugEntryTiming :
    Admissible (fun _ => 1) ((debugActions false ++ [Action.hostWrite 0x00#8]).zip [0, 0, 0, 1, 1, 2]) ∧
      Admissible (fun _ => 1) ((debugActions true ++ [Action.hostWrite 0x00#8]).zip [0, 0, 0, 1, 1, 1, 2, 2, 3, 3, 4]) := by
  simp [Admissible, holdAfter, debugActions, debugSequence, Request.asAction]

end Sys2Proof.Tests
end

/-! What every part of a step does to the pins, the streams and the trace: it performs a list of the core's actions, and
the pins and both streams change exactly as that list says (R7, R13, R23, R31, R155). -/

namespace Sys2Proof.Machine

variable {s t u : State}

theorem writtenBytes_append (a b : List Action) : writtenBytes (a ++ b) = writtenBytes a ++ writtenBytes b := by
  induction a with
  | nil => rfl
  | cons x xs ih => cases x <;> simp [writtenBytes, ih]

theorem readBytesOf_append (a b : List Action) : readBytesOf (a ++ b) = readBytesOf a ++ readBytesOf b := by
  induction a with
  | nil => rfl
  | cons x xs ih => cases x <;> simp [readBytesOf, ih]

/-- The change from s to t is exactly the effect of a list of the core's actions: it is what the trace gained, the pins
are what it leaves, its HostReads took the head of the input stream and its HostWrites ended the output stream. The
registers, the sub-state and the environment are left open. -/
structure Performs (actions : List Action) (s t : State) : Prop where
  core : ∀ a ∈ actions, a.isCore = true
  trace : t.trace = s.trace ++ actions
  pins : t.pins = replay actions s.pins
  input : s.input = readBytesOf actions ++ t.input
  output : t.output = s.output ++ writtenBytes actions

/-- Some list of the core's actions accounts for the change from s to t. -/
def RunsTo (s t : State) : Prop := ∃ actions, Performs actions s t

/-- Two lists of actions, one after the other. -/
theorem Performs.append {a b : List Action} (hst : Performs a s t) (htu : Performs b t u) : Performs (a ++ b) s u where
  core x hx := (List.mem_append.mp hx).elim (hst.core x) (htu.core x)
  trace := by rw [htu.trace, hst.trace, List.append_assoc]
  pins := by rw [htu.pins, hst.pins, replay_append]
  input := by rw [hst.input, htu.input, readBytesOf_append, List.append_assoc]
  output := by rw [htu.output, hst.output, writtenBytes_append, List.append_assoc]

theorem RunsTo.trans (hst : RunsTo s t) (htu : RunsTo t u) : RunsTo s u := by
  obtain ⟨_, ha⟩ := hst
  obtain ⟨_, hb⟩ := htu
  exact ⟨_, ha.append hb⟩

/-- A change of registers, sub-state or environment alone needs no action. -/
theorem RunsTo.of_kept (htrace : t.trace = s.trace) (hpins : t.pins = s.pins) (hinput : t.input = s.input)
    (houtput : t.output = s.output) : RunsTo s t :=
  ⟨[], by simp, by simp [htrace], hpins, hinput.symm, by simp [houtput, writtenBytes]⟩

theorem RunsTo.refl (s : State) : RunsTo s s := .of_kept rfl rfl rfl rfl

/-! The primitives -/

theorem pinConfigure_runsTo {r : Role} {d : Dir} (hc : (Request.configure r d).isCore = true) (s : State) :
    RunsTo s (pinConfigure r d s) :=
  ⟨[.pinConfigure r d], by simpa [Action.isCore] using hc, rfl, rfl, rfl, by simp [writtenBytes]⟩

theorem pinWrite_runsTo {r : Role} {l : Level} (hc : (Request.write r l).isCore = true) (s : State) :
    RunsTo s (pinWrite r l s) :=
  ⟨[.pinWrite r l], by simpa [Action.isCore] using hc, rfl, rfl, rfl, by simp [writtenBytes]⟩

theorem pinRead_runsTo {r : Role} (hc : (Request.read r).isCore = true) (s : State) : RunsTo s (pinRead r s).2 := by
  obtain ⟨n, target, hr⟩ := pinRead_frame r s
  rw [hr]
  exact ⟨[.pinRead r _], by simpa [Action.isCore] using hc, rfl, rfl, rfl, by simp [writtenBytes]⟩

theorem wait_runsTo (i : Interval) (s : State) : RunsTo s (wait i s) :=
  ⟨[.wait i], by simp [Action.isCore], rfl, rfl, rfl, by simp [writtenBytes]⟩

theorem hostWrite_runsTo (b : Byte) (s : State) : RunsTo s (hostWrite b s) :=
  ⟨[.hostWrite b], by simp [Action.isCore], rfl, rfl, rfl, rfl⟩

theorem hostRead_runsTo {b : Byte} (h : hostRead s = some (b, t)) : RunsTo s t := by
  rcases hostRead_cases s with ⟨_, hr⟩ | ⟨c, rest, hi, hr⟩
  · simp [hr] at h
  · obtain ⟨rfl, rfl⟩ : c = b ∧ _ = t := by simpa [hr] using h
    exact ⟨[.hostRead c], by simp [Action.isCore], rfl, rfl, hi, by simp [writtenBytes]⟩

theorem retire_runsTo (s : State) : RunsTo s (retire s) := .of_kept rfl rfl rfl rfl

/-- What the guard of R155 lets through is a run of the core's actions; a HostRead on an empty stream performs none. -/
theorem perform_runsTo {q : Request} (h : perform q s = .next t) : RunsTo s t := by
  cases q with
  | configure r d =>
    obtain ⟨hc, rfl⟩ := guarded_next h
    exact pinConfigure_runsTo hc s
  | write r l =>
    obtain ⟨hc, rfl⟩ := guarded_next h
    exact pinWrite_runsTo hc s
  | read r =>
    obtain ⟨hc, rfl⟩ := guarded_next h
    exact pinRead_runsTo hc s
  | wait i =>
    obtain ⟨-, rfl⟩ := guarded_next h
    exact wait_runsTo i s
  | hostRead =>
    obtain ⟨-, rfl⟩ := guarded_next h
    cases hr : hostRead s with
    | none => exact .refl s
    | some p => exact hostRead_runsTo hr
  | hostWrite b =>
    obtain ⟨-, rfl⟩ := guarded_next h
    exact hostWrite_runsTo b s

/-! Whole commands -/

theorem readBytes_runsTo (n : Nat) (s : State) : RunsTo s (readBytes n s) := by
  induction n generalizing s with
  | zero => exact .refl s
  | succ n ih =>
    rw [readBytes]
    cases hr : hostRead s with
    | none => exact .refl s
    | some p => exact (hostRead_runsTo hr).trans (ih p.2)

theorem hostWriteAll_runsTo (bytes : List Byte) (s : State) : RunsTo s (hostWriteAll bytes s) := by
  induction bytes generalizing s with
  | nil => exact .refl s
  | cons b bs ih => exact (hostWrite_runsTo b s).trans (ih _)

theorem respond_runsTo (bytes : List Byte) (s : State) : RunsTo s (respond bytes s) :=
  (hostWriteAll_runsTo bytes s).trans (retire_runsTo _)

theorem enterDebugMode_runsTo (withReset : Bool) (s : State) : RunsTo s (enterDebugMode withReset s) := by
  rw [enterDebugMode_eq]
  refine ⟨debugActions withReset, ?core, rfl, rfl, ?input, ?output⟩
  case core => cases withReset <;> decide
  case input => cases withReset <;> rfl
  case output => cases withReset <;> exact (List.append_nil _).symm

theorem exchangeBit_runsTo (b : Bit) (s : State) : RunsTo s (exchangeBit b s).2 := by
  obtain ⟨l, n, target, he⟩ := exchangeBit_frame b s
  rw [he]
  exact ⟨transferActions b l, by simp [transferActions, Action.isCore, Request.isCore], rfl,
    (replay_transferActions b l s.pins).symm, rfl, (List.append_nil _).symm⟩

theorem exchangeData_runsTo (d : Word) (n : Nat) (got : Word) (s : State) : RunsTo s (exchangeData d n got s).2 := by
  induction n generalizing got s with
  | zero => exact .refl s
  | succ i ih => exact (exchangeBit_runsTo (bitOf d i) s).trans (ih _ _)

theorem exchangePacket_runsTo (d : Word) (s : State) : RunsTo s (exchangePacket d s).2 :=
  (exchangeBit_runsTo false s).trans (exchangeData_runsTo d Config.dataBits 0 _)

/-- Every command is a run of the core's actions (R122 to R128, R155). -/
theorem exec_runsTo {i : Instr} (h : exec i s = .next t) : RunsTo s t := by
  cases i with
  | ping => cases h; exact respond_runsTo _ s
  | breakpoint => cases h; exact (enterDebugMode_runsTo false s).trans (respond_runsTo _ _)
  | reset => cases h; exact (enterDebugMode_runsTo true s).trans (respond_runsTo _ _)
  | sendReceive d => cases h; exact (exchangePacket_runsTo d s).trans (respond_runsTo _ _)
  | send d => cases h; exact (exchangePacket_runsTo d s).trans (respond_runsTo _ _)
  | receive => cases h; exact (exchangePacket_runsTo 0 s).trans (respond_runsTo _ _)
  | unknown b => cases h; exact respond_runsTo _ s

theorem enterHold_runsTo (why : DecodeReject) (s : State) : RunsTo s (enterHold why s) := by
  cases why <;> exact .of_kept rfl rfl rfl rfl

/-- The state a fetch answers, whether or not the frame is whole. -/
def Fetch.state : Fetch → State
  | .ready _ s => s
  | .held s => s

/-- Reading a frame is a run of HostReads, then for a hold a change of registers alone (R52, R129). -/
theorem fetch_runsTo (s : State) : RunsTo s (fetch s).state := by
  unfold fetch
  split
  · exact readBytes_runsTo _ s
  · exact (readBytes_runsTo _ s).trans (enterHold_runsTo _ _)

/-! The action-level machine -/

theorem storeBit_runsTo (k : Nat) (b : Bit) (s : State) : RunsTo s (storeBit k b s) := by
  unfold storeBit
  split <;> exact .of_kept rfl rfl rfl rfl

theorem nextTransfer_runsTo (k : Fin 17) (s : State) : RunsTo s (nextTransfer k s) := by
  unfold nextTransfer
  split <;> exact .of_kept rfl rfl rfl rfl

/-- A pin write of R90 with the settle wait after it, then another sub-state. -/
theorem performSettle_runsTo {q : Request} {next : SubState}
    (h : andThen (perform q s) (fun v => .next { wait .settle v with disp := next }) = .next t) : RunsTo s t := by
  obtain ⟨v, hv, ht⟩ := andThen_cases h
  cases ht
  exact (perform_runsTo hv).trans ((wait_runsTo .settle v).trans (.of_kept rfl rfl rfl rfl))

theorem transferStep_runsTo {k : Fin 17} {ph : Phase} (h : transferStep k ph s = .next t) : RunsTo s t := by
  unfold transferStep at h
  cases ph with
  | drive => exact performSettle_runsTo h
  | raise => exact performSettle_runsTo h
  | lower => exact performSettle_runsTo h
  | sample =>
    obtain ⟨hc, rfl⟩ := guarded_next h
    exact (pinRead_runsTo hc s).trans ((storeBit_runsTo _ _ _).trans (nextTransfer_runsTo k _))

theorem debugStep_runsTo {n : Nat} (h : debugStep n s = .next t) : RunsTo s t := by
  rcases debugStep_cases h with ⟨-, rfl⟩ | ⟨q, v, -, hv, rfl⟩
  · exact .of_kept rfl rfl rfl rfl
  · exact (perform_runsTo hv).trans (.of_kept rfl rfl rfl rfl)

theorem responseStep_runsTo {q : List Byte} (h : responseStep q s = .next t) : RunsTo s t := by
  match q with
  | [] => cases h; exact retire_runsTo s
  | [b] => cases h; exact (hostWrite_runsTo b s).trans (retire_runsTo _)
  | b :: _ :: _ => cases h; exact (hostWrite_runsTo b s).trans (.of_kept rfl rfl rfl rfl)

/-- An action-level step that waits for the host holds, or reads one byte and changes registers and sub-state alone
(R29, R129). -/
theorem microStep_waiting_cases (hw : s.disp.waitsForHost = true) (h : microStep s = .next t) :
    (hostRead s = none ∧ t = s) ∨
      ∃ b v cmd txd disp, hostRead s = some (b, v) ∧ t = { v with cmd := cmd, txd := txd, disp := disp } := by
  cases hd : s.disp with
  | idle | payloadHi | payloadLo =>
    simp only [microStep, hd] at h
    cases hr : hostRead s with
    | none =>
      rw [hr] at h
      cases h
      exact .inl ⟨rfl, rfl⟩
    | some p =>
      rw [hr] at h
      cases h
      exact .inr ⟨_, _, _, _, _, rfl, rfl⟩
  | xfer | dbg | resp => simp [hd, SubState.waitsForHost] at hw

theorem microStep_waiting_runsTo (hw : s.disp.waitsForHost = true) (h : microStep s = .next t) : RunsTo s t := by
  rcases microStep_waiting_cases hw h with ⟨-, rfl⟩ | ⟨b, v, cmd, txd, disp, hr, rfl⟩
  · exact .refl _
  · exact (hostRead_runsTo hr).trans (.of_kept rfl rfl rfl rfl)

/-- Every action-level step is a run of the core's actions (R29, R155). -/
theorem microStep_runsTo (h : microStep s = .next t) : RunsTo s t := by
  cases hd : s.disp with
  | idle | payloadHi | payloadLo => exact microStep_waiting_runsTo (by rw [hd]; rfl) h
  | xfer k ph =>
    rw [microStep, hd] at h
    exact transferStep_runsTo h
  | dbg n =>
    rw [microStep, hd] at h
    exact debugStep_runsTo h
  | resp q =>
    rw [microStep, hd] at h
    exact responseStep_runsTo h

theorem runToHostRead_runsTo {n : Nat} (h : runToHostRead n s = .next t) : RunsTo s t := by
  induction n generalizing s with
  | zero => cases h; exact .refl _
  | succ n ih =>
    rw [runToHostRead] at h
    split at h
    · cases h; exact .refl _
    · obtain ⟨v, hv, ht⟩ := andThen_cases h
      exact (microStep_runsTo hv).trans (ih ht)

/-! The step -/

/-- Every step, from any state, is a run of the core's actions (R7, R120, R155). -/
theorem step_runsTo (h : step s = .next t) : RunsTo s t := by
  unfold step at h
  split at h
  · have hf := fetch_runsTo s
    split at h
    next i v hv =>
      rw [hv] at hf
      exact hf.trans (exec_runsTo h)
    next v hv =>
      rw [hv] at hf
      cases h
      exact hf
  · exact runToHostRead_runsTo h

/-- A run of actions carries an exact account of the pins and of the output stream on (R7, R23, R31). -/
theorem RunsTo.keeps_explainedBy {start : Pins} (hrun : RunsTo s t) (hs : s.explainedBy start) : t.explainedBy start := by
  obtain ⟨actions, hp⟩ := hrun
  obtain ⟨hpins, hout⟩ := hs
  constructor
  · rw [hp.trace, replay_append, hpins, hp.pins]
  · rw [hp.trace, writtenBytes_append, hout, hp.output]

/-- Settles O52: a step is a run of actions, and a run of actions carries the account on. -/
theorem stepsKeepTraceExact : Obligations.StepsKeepTraceExact :=
  fun _ _ _ hs h => (step_runsTo h).keeps_explainedBy hs

end Sys2Proof.Machine

/-! Time stamps and waits (R14, R150). -/

namespace Sys2Proof.Machine

theorem minDuration_cons (dur : Interval → Nat) (a : Action) (actions : List Action) :
    minDuration dur (a :: actions) = holdAfter dur a + minDuration dur actions := by
  simp [minDuration]

/-- Settles O55, by induction on the actions between the two. -/
theorem timingsObeyWaits : Obligations.TimingsObeyWaits := by
  intro dur mid a b t u h
  induction mid generalizing a t with
  | nil =>
    obtain ⟨hab, -⟩ := h
    simpa [minDuration] using hab
  | cons c mid ih =>
    obtain ⟨hac, hrest⟩ := h
    have hcb := ih c.1 c.2 hrest
    rw [List.map_cons, minDuration_cons]
    omega

end Sys2Proof.Machine

/-! The lines of the roles (R9, R23, R50). -/

namespace Sys2Proof.Machine

theorem roleIndex_injective : Function.Injective Config.roleIndex := by
  intro r q h
  cases r <;> cases q <;> cases h <;> rfl

/-- A renumbering of distinct numbers keeps them distinct (R9). -/
theorem pinMap_injective : Function.Injective Config.pinMap :=
  Config.lineOrder.injective.comp roleIndex_injective

/-- Settles O9: PIN_MAP is injective, and so on the roles that actions name or do not name. -/
theorem rolesHaveTheirOwnLines : Obligations.RolesHaveTheirOwnLines :=
  ⟨fun _ _ h => pinMap_injective h, fun _ _ _ => (Option.map_injective pinMap_injective).eq_iff⟩

end Sys2Proof.Machine

/-! The decoder inverted (R60 to R64, R68): what stood at the head of the bytes. -/

namespace Sys2Proof

/-- The decoder's three ways: no byte, a command byte alone, or a command byte that asks for a payload. -/
theorem decode_cases (bs : List Byte) :
    (bs = [] ∧ decode bs = .error .noCommandByte) ∨
      ∃ c tail, bs = c :: tail ∧
        ((∃ i, i.wellFormed = true ∧ encode i = [c] ∧ decode bs = .ok (i, tail)) ∨
          carriesPayload c = true ∧
            ∃ make : Word → Instr,
              (∀ d, (make d).wellFormed = true ∧ encode (make d) = [c, highByte d, lowByte d]) ∧
                decode bs = decodePayload make c tail) := by
  match bs with
  | [] => exact .inl ⟨rfl, rfl⟩
  | c :: tail =>
    refine .inr ⟨c, tail, rfl, ?_⟩
    by_cases hP : c = 0x50#8
    · subst hP; exact .inl ⟨.ping, rfl, rfl, rfl⟩
    by_cases hB : c = 0x42#8
    · subst hB; exact .inl ⟨.breakpoint, rfl, rfl, rfl⟩
    by_cases hR : c = 0x52#8
    · subst hR; exact .inl ⟨.reset, rfl, rfl, rfl⟩
    by_cases hS : c = 0x53#8
    · subst hS; exact .inr ⟨rfl, .sendReceive, fun _ => ⟨rfl, rfl⟩, rfl⟩
    by_cases hs : c = 0x73#8
    · subst hs; exact .inr ⟨rfl, .send, fun _ => ⟨rfl, rfl⟩, rfl⟩
    by_cases hr : c = 0x72#8
    · subst hr; exact .inl ⟨.receive, rfl, rfl, rfl⟩
    exact .inl ⟨.unknown c, by simp [Instr.wellFormed, isCommandByte, *], rfl, by simp [decode, *]⟩

/-- What decodes is a well-formed frame and stood at the head of the bytes (R60 to R64). -/
theorem decode_ok {bs rest : List Byte} {i : Instr} (h : decode bs = .ok (i, rest)) :
    i.wellFormed = true ∧ bs = encode i ++ rest := by
  rcases decode_cases bs with ⟨-, hd⟩ | ⟨c, tail, rfl, ⟨j, hwf, henc, hd⟩ | ⟨-, make, hmake, hd⟩⟩
  · simp [hd] at h
  · obtain ⟨rfl, rfl⟩ : j = i ∧ tail = rest := by simpa [hd] using h
    exact ⟨hwf, by rw [henc]; rfl⟩
  · rcases decodePayload_cases make c tail with ⟨-, hp⟩ | ⟨b, -, hp⟩ | ⟨b, l, tail, rfl, hp⟩
    · simp [hd, hp] at h
    · simp [hd, hp] at h
    · obtain ⟨rfl, rfl⟩ : make (payloadWord b l) = i ∧ tail = rest := by simpa [hd, hp] using h
      obtain ⟨hwf, henc⟩ := hmake (payloadWord b l)
      exact ⟨hwf, by simp [henc]⟩

/-- What does not decode is a frame that misses its command byte, its first or its second payload byte (R62, R68). -/
theorem decode_error {bs : List Byte} {why : DecodeReject} (h : decode bs = .error why) :
    (bs = [] ∧ why = .noCommandByte) ∨
      (∃ c, carriesPayload c = true ∧ bs = [c] ∧ why = .noPayloadHigh c) ∨
      ∃ c b, carriesPayload c = true ∧ bs = [c, b] ∧ why = .noPayloadLow c b := by
  rcases decode_cases bs with ⟨rfl, hd⟩ | ⟨c, tail, rfl, ⟨j, -, -, hd⟩ | ⟨hc, make, -, hd⟩⟩
  · exact .inl ⟨rfl, by simpa [hd] using h.symm⟩
  · simp [hd] at h
  · rcases decodePayload_cases make c tail with ⟨rfl, hp⟩ | ⟨b, rfl, hp⟩ | ⟨b, l, tail, rfl, hp⟩
    · exact .inr (.inl ⟨c, hc, rfl, by simpa [hd, hp] using h.symm⟩)
    · exact .inr (.inr ⟨c, b, hc, rfl, by simpa [hd, hp] using h.symm⟩)
    · simp [hd, hp] at h

theorem carriesPayload_iff {c : Byte} : carriesPayload c = true ↔ c = 0x53#8 ∨ c = 0x73#8 := by
  simp [carriesPayload]

/-- A command byte that asks for a payload, alone (R62). -/
theorem decode_payload_nil {c : Byte} (hc : carriesPayload c = true) : decode [c] = .error (.noPayloadHigh c) := by
  rcases carriesPayload_iff.mp hc with rfl | rfl <;> rfl

/-- A command byte that asks for a payload, with the first byte of it alone (R62). -/
theorem decode_payload_singleton {c : Byte} (hc : carriesPayload c = true) (b : Byte) :
    decode [c, b] = .error (.noPayloadLow c b) := by
  rcases carriesPayload_iff.mp hc with rfl | rfl <;> rfl

end Sys2Proof

/-! The step between commands: the frame is read, then it runs, or the machine holds (R52, R120, R129). -/

namespace Sys2Proof.Machine

variable {s t : State}

theorem pendingFrame_idle (hidle : s.disp = .idle) : pendingFrame s = [] := by
  rw [pendingFrame, hidle]

/-- A waiting machine whose next frame is whole reads the rest of it and runs it (R120). -/
theorem step_of_decode_ok {i : Instr} {rest : List Byte} (hw : s.disp.waitsForHost = true)
    (hd : decode (pendingFrame s ++ s.input) = .ok (i, rest)) :
    step s = exec i (readBytes (s.input.length - rest.length) s) := by
  simp [step, hw, fetch, hd]

/-- A waiting machine whose next frame is not whole reads the bytes there are and waits on (R129). -/
theorem step_of_decode_error {why : DecodeReject} (hw : s.disp.waitsForHost = true)
    (hd : decode (pendingFrame s ++ s.input) = .error why) :
    step s = .next (enterHold why (readBytes s.input.length s)) := by
  simp [step, hw, fetch, hd]

/-- The state after the HostReads of a whole frame (R52). -/
def afterReads (i : Instr) (rest : List Byte) (s : State) : State :=
  { s with input := rest, trace := s.trace ++ (encode i).map .hostRead }

/-- From idle with a whole frame, a step reads exactly that frame and runs it (R52, R120). -/
theorem step_idle_of_decode_ok {i : Instr} {rest : List Byte} (hidle : s.disp = .idle)
    (hd : decode s.input = .ok (i, rest)) : step s = exec i (afterReads i rest s) := by
  have hi : s.input = encode i ++ rest := (decode_ok hd).2
  rw [step_of_decode_ok (by rw [hidle]; rfl) (by rw [pendingFrame_idle hidle]; exact hd), readBytes_eq, hi]
  simp [afterReads]

/-- Settles O41: the decoder misses one payload byte or two, and the fetch holds. -/
theorem partialFrameWaits : Obligations.PartialFrameWaits := by
  intro c b s hc hidle
  have hw : s.disp.waitsForHost = true := by rw [hidle]; rfl
  constructor
  · intro hi
    rw [step_of_decode_error hw (why := .noPayloadHigh c)
      (by rw [pendingFrame_idle hidle, hi]; exact decode_payload_nil hc), readBytes_eq, hi]
    rfl
  · intro hi
    rw [step_of_decode_error hw (why := .noPayloadLow c b)
      (by rw [pendingFrame_idle hidle, hi]; exact decode_payload_singleton hc b), readBytes_eq, hi]
    rfl

/-- Settles O44: a step is a run of actions, and those account for both streams. -/
theorem streamsAreOrderedAndLossless : Obligations.StreamsAreOrderedAndLossless := by
  intro s t h
  obtain ⟨actions, hrun⟩ := step_runsTo h
  exact ⟨readBytesOf actions, actions, writtenBytes actions, hrun.input, hrun.trace, hrun.output, rfl, rfl⟩

end Sys2Proof.Machine

/-! Reset (R33, R131, R160). -/

namespace Sys2Proof.Machine

/-- Settles O47, by the definition of the reset state. -/
theorem resetValues : Obligations.ResetValues := ⟨rfl, rfl, rfl, rfl, rfl⟩

/-- The nine actions of R160 leave the pins of R33, whatever they were at power-up but for DIN's latch. -/
theorem replay_reset_trace {pins : Pins} (h : pins.lat.din = .low) :
    replay State.reset.trace pins = State.reset.pins := by
  simp [replay, State.reset, Action.onPins, Pins.configure, Pins.write, PerRole.set, h]

/-- Settles O49: the reset state is evaluated, and its trace replayed. -/
theorem resetStateIsGood : Obligations.ResetStateIsGood :=
  ⟨by decide, by decide, by decide, fun _ h => ⟨replay_reset_trace h, rfl⟩⟩

end Sys2Proof.Machine

/-! What a command runs on: it reads and changes the pins, the environment, the trace and the output stream, and neither
the registers, nor the sub-state, nor the input stream (R22, R31, R52). -/

namespace Sys2Proof.Machine

variable {s t : State}

/-- The state with what a command runs on replaced: pins, output stream, environment and trace. -/
def State.setLink (s : State) (pins : Pins) (output : List Byte) (target : Target) (draws : Nat) (trace : List Action) :
    State :=
  { s with pins := pins, output := output, target := target, draws := draws, trace := trace }

/-- An update of registers, sub-state or input stream alone: it commutes with every change of what a command runs on. -/
def KeepsLink (f : State → State) : Prop :=
  ∀ (s : State) (pins : Pins) (output : List Byte) (target : Target) (draws : Nat) (trace : List Action),
    f (s.setLink pins output target draws trace) = (f s).setLink pins output target draws trace

theorem keepsLink_retire : KeepsLink retire := fun _ _ _ _ _ _ => rfl

theorem keepsLink_hostSend (bytes : List Byte) : KeepsLink (hostSend bytes) := fun _ _ _ _ _ _ => rfl

theorem pinWrite_eq_setLink (r : Role) (l : Level) (s : State) :
    pinWrite r l s = s.setLink (s.pins.write r l) s.output s.target s.draws (s.trace ++ [.pinWrite r l]) := rfl

theorem wait_eq_setLink (i : Interval) (s : State) :
    wait i s = s.setLink s.pins s.output s.target s.draws (s.trace ++ [.wait i]) := rfl

theorem enterDebugMode_eq_setLink (withReset : Bool) (s : State) :
    enterDebugMode withReset s =
      s.setLink (replay (debugActions withReset) s.pins) s.output s.target s.draws
        (s.trace ++ debugActions withReset) :=
  enterDebugMode_eq withReset s

/-- A read of DIN: the level, and what it changes of the environment and the trace. -/
theorem pinRead_din_eq_setLink (s : State) :
    pinRead .din s =
      (lineLevel .din s,
        s.setLink s.pins s.output (if s.pins.dir.din = .input then s.target.sampled else s.target)
          (if s.pins.dir.din = .input then s.draws + 1 else s.draws)
          (s.trace ++ [.pinRead .din (lineLevel .din s)])) := by
  cases h : s.pins.dir.din <;> simp [pinRead, lineLevel, h, envAdvance, State.record, State.setLink]

section
variable {f : State → State} (hf : KeepsLink f)
include hf

/-- Such an update leaves what a command runs on as it was. -/
theorem KeepsLink.self (s : State) : f s = (f s).setLink s.pins s.output s.target s.draws s.trace :=
  hf s s.pins s.output s.target s.draws s.trace

theorem KeepsLink.pins (s : State) : (f s).pins = s.pins := by rw [hf.self]; rfl

theorem KeepsLink.output (s : State) : (f s).output = s.output := by rw [hf.self]; rfl

theorem KeepsLink.target (s : State) : (f s).target = s.target := by rw [hf.self]; rfl

theorem KeepsLink.draws (s : State) : (f s).draws = s.draws := by rw [hf.self]; rfl

theorem KeepsLink.trace (s : State) : (f s).trace = s.trace := by rw [hf.self]; rfl

theorem KeepsLink.pinWrite (r : Role) (l : Level) (s : State) : pinWrite r l (f s) = f (pinWrite r l s) := by
  simp only [pinWrite_eq_setLink, hf.pins, hf.output, hf.target, hf.draws, hf.trace, hf _ _ _ _ _ _]

theorem KeepsLink.wait (i : Interval) (s : State) : wait i (f s) = f (wait i s) := by
  simp only [wait_eq_setLink, hf.pins, hf.output, hf.target, hf.draws, hf.trace, hf _ _ _ _ _ _]

theorem KeepsLink.pinRead_din (s : State) : pinRead .din (f s) = ((pinRead .din s).1, f (pinRead .din s).2) := by
  have hlevel : lineLevel .din (f s) = lineLevel .din s := by
    simp only [lineLevel, envLevel, hf.pins, hf.target, hf.draws]
  simp only [pinRead_din_eq_setLink, hlevel, hf.pins, hf.output, hf.target, hf.draws, hf.trace, hf _ _ _ _ _ _]

theorem KeepsLink.enterDebugMode (withReset : Bool) (s : State) :
    enterDebugMode withReset (f s) = f (enterDebugMode withReset s) := by
  simp only [enterDebugMode_eq_setLink, hf.pins, hf.output, hf.target, hf.draws, hf.trace, hf _ _ _ _ _ _]

theorem KeepsLink.exchangeBit (b : Bit) (s : State) :
    exchangeBit b (f s) = ((exchangeBit b s).1, f (exchangeBit b s).2) := by
  simp only [Machine.exchangeBit, hf.pinWrite, hf.wait, hf.pinRead_din]

theorem KeepsLink.exchangeData (d : Word) (n : Nat) (got : Word) (s : State) :
    exchangeData d n got (f s) = ((exchangeData d n got s).1, f (exchangeData d n got s).2) := by
  induction n generalizing got s with
  | zero => rfl
  | succ i ih => simp only [Machine.exchangeData, hf.exchangeBit, ih]

theorem KeepsLink.exchangePacket (d : Word) (s : State) :
    exchangePacket d (f s) = ((exchangePacket d s).1, f (exchangePacket d s).2) := by
  simp only [Machine.exchangePacket, hf.exchangeBit, hf.exchangeData]

end

/-- What a command does before its response, and the response: the pin actions come first (R52). -/
def beforeResponse (i : Instr) (s : State) : List Byte × State :=
  match i with
  | .ping => (pingResponse, s)
  | .breakpoint => (ackResponse, enterDebugMode false s)
  | .reset => (ackResponse, enterDebugMode true s)
  | .sendReceive d => (dataResponse (exchangePacket d s).1, (exchangePacket d s).2)
  | .send d => (ackResponse, (exchangePacket d s).2)
  | .receive => (dataResponse (exchangePacket 0 s).1, (exchangePacket 0 s).2)
  | .unknown _ => (nakResponse, s)

/-- Every command runs its pin actions and then responds (R122 to R128). -/
theorem exec_eq_respond (i : Instr) (s : State) :
    exec i s = .next (respond (beforeResponse i s).1 (beforeResponse i s).2) := by
  cases i <;> rfl

/-- A command does not look at the registers, the sub-state or the input stream before its response. -/
theorem KeepsLink.beforeResponse {f : State → State} (hf : KeepsLink f) (i : Instr) (s : State) :
    beforeResponse i (f s) = ((beforeResponse i s).1, f (beforeResponse i s).2) := by
  cases i with
  | ping | unknown => rfl
  | breakpoint | reset => simp only [Machine.beforeResponse, hf.enterDebugMode]
  | sendReceive | send | receive => simp only [Machine.beforeResponse, hf.exchangePacket]

/-- A command leaves the input stream as it is: run on a state whose input stream is written once more, it does the
same (R52; log 11). -/
theorem beforeResponse_input (i : Instr) (s : State) : (beforeResponse i s).2.input = s.input := by
  have hf : KeepsLink fun u => { u with input := s.input } := fun _ _ _ _ _ _ => rfl
  exact congrArg (·.2.input) (hf.beforeResponse i s)

theorem respond_retire (bytes : List Byte) (s : State) : respond bytes (retire s) = respond bytes s := by
  rw [respond_eq, respond_eq]; rfl

/-- A command gives the same end from every value of the registers and every sub-state (R22). -/
theorem exec_retire (i : Instr) (s : State) : exec i (retire s) = exec i s := by
  simp only [exec_eq_respond, keepsLink_retire.beforeResponse, respond_retire]

/-- Settles O33: every command ends in its response, and a response ends in `retire`. -/
theorem commandsLeaveNoTransientState : Obligations.CommandsLeaveNoTransientState := by
  intro i s t h
  rw [exec_eq_respond] at h
  cases h
  rw [respond_eq]
  exact ⟨rfl, rfl, rfl, rfl, rfl, beforeResponse_input i s, fun _ => rfl⟩

end Sys2Proof.Machine

/-! The action-level step inside a command, one equation per sub-state (R29, R90, R111). -/

namespace Sys2Proof.Machine

variable {s t : State}

theorem microStep_xfer {k : Fin 17} {ph : Phase} (hd : s.disp = .xfer k ph) : microStep s = transferStep k ph s := by
  rw [microStep, hd]

theorem microStep_dbg {n : Nat} (hd : s.disp = .dbg n) : microStep s = debugStep n s := by
  rw [microStep, hd]

theorem microStep_resp {q : List Byte} (hd : s.disp = .resp q) : microStep s = responseStep q s := by
  rw [microStep, hd]

theorem transferStep_drive (k : Fin 17) (s : State) :
    transferStep k .drive s =
      .next { wait .settle (pinWrite .dout (.ofBit (outboundBit s.txd k.val)) s) with disp := .xfer k .raise } := rfl

theorem transferStep_raise (k : Fin 17) (s : State) :
    transferStep k .raise s = .next { wait .settle (pinWrite .clk .high s) with disp := .xfer k .lower } := rfl

theorem transferStep_lower (k : Fin 17) (s : State) :
    transferStep k .lower s = .next { wait .settle (pinWrite .clk .low s) with disp := .xfer k .sample } := rfl

theorem transferStep_sample (k : Fin 17) (s : State) :
    transferStep k .sample s =
      .next (nextTransfer k (storeBit k.val (pinRead .din s).1.toBit (pinRead .din s).2)) := rfl

/-- The state after actions on the pins and waits. -/
def afterActions (actions : List Action) (s : State) : State :=
  s.setLink (replay actions s.pins) s.output s.target s.draws (s.trace ++ actions)

theorem afterActions_append (a b : List Action) (s : State) :
    afterActions (a ++ b) s = afterActions b (afterActions a s) := by
  simp [afterActions, State.setLink, replay_append]

theorem enterDebugMode_eq_afterActions (withReset : Bool) (s : State) :
    enterDebugMode withReset s = afterActions (debugActions withReset) s :=
  enterDebugMode_eq_setLink withReset s

/-- Every request of R111 passes the guard and performs its one action. -/
theorem perform_of_mem_debugSequence {withReset : Bool} {q : Request} (hq : q ∈ debugSequence withReset) (s : State) :
    perform q s = .next (afterActions q.asAction s) := by
  cases withReset <;> simp only [debugSequence, List.mem_cons, List.not_mem_nil, or_false] at hq
  · rcases hq with rfl | rfl | rfl | rfl | rfl <;> rfl
  · rcases hq with rfl | rfl | rfl | rfl | rfl | rfl | rfl | rfl | rfl | rfl <;> rfl

/-- The sub-state after action n of R111. -/
def afterDebugAction (withReset : Bool) (n : Nat) : SubState :=
  if n < (debugSequence withReset).length then .dbg (n + 1) else .resp ackResponse

theorem debugStep_action {n : Nat} {q : Request} (hq : debugRequest (s.cmd == 0x52#8) n = some q) :
    debugStep n s =
      .next { afterActions q.asAction s with disp := afterDebugAction (s.cmd == 0x52#8) n } := by
  simp [debugStep, hq, perform_of_mem_debugSequence (debugRequest_mem hq), afterDebugAction]

theorem debugStep_outside {n : Nat} (hq : debugRequest (s.cmd == 0x52#8) n = none) :
    debugStep n s = .next { s with disp := .resp ackResponse } := by
  simp [debugStep, hq]

theorem nextTransfer_hostSend (k : Fin 17) (bytes : List Byte) (s : State) :
    nextTransfer k (hostSend bytes s) = hostSend bytes (nextTransfer k s) := by
  unfold nextTransfer
  split <;> rfl

theorem storeBit_hostSend (k : Nat) (b : Bit) (bytes : List Byte) (s : State) :
    storeBit k b (hostSend bytes s) = hostSend bytes (storeBit k b s) := by
  unfold storeBit
  split <;> rfl

theorem transferStep_hostSend {k : Fin 17} {ph : Phase} (bytes : List Byte) (h : transferStep k ph s = .next t) :
    transferStep k ph (hostSend bytes s) = .next (hostSend bytes t) := by
  cases ph with
  | drive | raise | lower => cases h; rfl
  | sample =>
    cases h
    simp only [transferStep_sample, (keepsLink_hostSend bytes).pinRead_din, storeBit_hostSend, nextTransfer_hostSend]

theorem debugStep_hostSend {n : Nat} (bytes : List Byte) (h : debugStep n s = .next t) :
    debugStep n (hostSend bytes s) = .next (hostSend bytes t) := by
  cases hq : debugRequest (s.cmd == 0x52#8) n with
  | none =>
    rw [debugStep_outside hq] at h
    cases h
    exact debugStep_outside hq
  | some q =>
    rw [debugStep_action hq] at h
    cases h
    exact debugStep_action (s := hostSend bytes s) hq

theorem responseStep_hostSend {q : List Byte} (bytes : List Byte) (h : responseStep q s = .next t) :
    responseStep q (hostSend bytes s) = .next (hostSend bytes t) := by
  match q with
  | [] => cases h; rfl
  | [b] => cases h; rfl
  | b :: _ :: _ => cases h; rfl

/-- Settles O43: no part of a command looks at the input stream. -/
theorem sendingDoesNotDisturbCommand : Obligations.SendingDoesNotDisturbCommand := by
  constructor
  · intro i s t bytes h
    rw [exec_eq_respond] at h
    cases h
    rw [exec_eq_respond, (keepsLink_hostSend bytes).beforeResponse, respond_eq, respond_eq]
    rfl
  · intro s t bytes hw h
    cases hd : s.disp with
    | idle | payloadHi | payloadLo => simp [hd, SubState.waitsForHost] at hw
    | xfer k ph =>
      rw [microStep_xfer hd] at h
      rw [microStep_xfer (s := hostSend bytes s) hd, transferStep_hostSend bytes h]
    | dbg n =>
      rw [microStep_dbg hd] at h
      rw [microStep_dbg (s := hostSend bytes s) hd, debugStep_hostSend bytes h]
    | resp q =>
      rw [microStep_resp hd] at h
      rw [microStep_resp (s := hostSend bytes s) hd, responseStep_hostSend bytes h]

end Sys2Proof.Machine

/-! The invariant sub-state by sub-state (R27, R29, R30). -/

namespace Sys2Proof.Machine

variable {s t : State}

/-- R27 (a) and (b), which hold of the pins in every sub-state. -/
def linesOk (p : Pins) : Prop := fixedDirections p = true ∧ latchesLow p = true

theorem linesOk_iff {p : Pins} :
    linesOk p ↔ (p.dir.clk = .output ∧ p.dir.dout = .output ∧ p.dir.din = .input) ∧
      p.lat.bkpt = .low ∧ p.lat.rst = .low := by
  simp [linesOk, fixedDirections, latchesLow, and_assoc]

theorem atRest_iff {p : Pins} :
    atRest p = true ↔ p.lat.clk = .low ∧ p.dir.bkpt = .input ∧ p.dir.rst = .input := by
  simp [atRest, and_assoc]

theorem good_iff : s.good = true ↔ linesOk s.pins ∧ subStateOk s = true := by
  simp [State.good, linesOk, and_assoc]

theorem good_idle_iff (hd : s.disp = .idle) :
    s.good = true ↔ linesOk s.pins ∧ atRest s.pins = true ∧ s.cmd = 0 ∧ s.txd = 0 ∧ s.sts = false ∧ s.rxd = 0 := by
  simp [good_iff, subStateOk, hd, and_assoc]

theorem good_payloadHi_iff (hd : s.disp = .payloadHi) :
    s.good = true ↔ linesOk s.pins ∧ atRest s.pins = true ∧ carriesPayload s.cmd = true ∧ s.txd = 0 ∧ s.sts = false ∧
      s.rxd = 0 := by
  simp [good_iff, subStateOk, hd, and_assoc]

theorem good_payloadLo_iff (hd : s.disp = .payloadLo) :
    s.good = true ↔ linesOk s.pins ∧ atRest s.pins = true ∧ carriesPayload s.cmd = true ∧ lowByte s.txd = 0 ∧
      s.sts = false ∧ s.rxd = 0 := by
  simp [good_iff, subStateOk, hd, and_assoc]

theorem good_xfer_iff {k : Fin 17} {ph : Phase} (hd : s.disp = .xfer k ph) :
    s.good = true ↔ linesOk s.pins ∧ (s.pins.lat.clk = clockBefore ph ∧ s.pins.dir.bkpt = .input ∧
      s.pins.dir.rst = .input) ∧ (carriesPayload s.cmd = true ∨ s.cmd = 0x72#8 ∧ s.txd = 0) := by
  simp [good_iff, subStateOk, hd, and_assoc]

/-- The pins before action n of debug-mode entry (R111, R113). -/
def debugPinsOk (withReset : Bool) (n : Nat) (p : Pins) : Prop :=
  p.lat.clk = .low ∧ p.dir.bkpt = breakpointBefore withReset n ∧ p.dir.rst = resetLineBefore withReset n

theorem good_dbg_iff {n : Nat} (hd : s.disp = .dbg n) :
    s.good = true ↔ linesOk s.pins ∧ (s.cmd = 0x42#8 ∨ s.cmd = 0x52#8) ∧
      (1 ≤ n ∧ n ≤ (debugSequence (s.cmd == 0x52#8)).length) ∧ debugPinsOk (s.cmd == 0x52#8) n s.pins := by
  simp only [good_iff, subStateOk, hd, debugPinsOk, Bool.and_eq_true, Bool.or_eq_true, beq_iff_eq, decide_eq_true_eq]
  tauto

theorem good_resp_iff {q : List Byte} (hd : s.disp = .resp q) :
    s.good = true ↔ linesOk s.pins ∧ atRest s.pins = true ∧ q ≠ [] := by
  simp [good_iff, subStateOk, hd]

/-- The end of a command at rest is good. -/
theorem good_retire (hlines : linesOk s.pins) (hrest : atRest s.pins = true) : (retire s).good = true :=
  (good_idle_iff rfl).mpr ⟨hlines, hrest, rfl, rfl, rfl, rfl⟩

/-- Every sub-state that waits for the host is at rest, with nothing received and the low half of the word to send
still 0. -/
theorem good_waiting (hg : s.good = true) (hw : s.disp.waitsForHost = true) :
    linesOk s.pins ∧ atRest s.pins = true ∧ lowByte s.txd = 0 ∧ s.sts = false ∧ s.rxd = 0 := by
  cases hd : s.disp with
  | idle =>
    obtain ⟨hlines, hrest, -, htxd, hsts, hrxd⟩ := (good_idle_iff hd).mp hg
    exact ⟨hlines, hrest, by rw [htxd]; rfl, hsts, hrxd⟩
  | payloadHi =>
    obtain ⟨hlines, hrest, -, htxd, hsts, hrxd⟩ := (good_payloadHi_iff hd).mp hg
    exact ⟨hlines, hrest, by rw [htxd]; rfl, hsts, hrxd⟩
  | payloadLo =>
    obtain ⟨hlines, hrest, -, htxd, hsts, hrxd⟩ := (good_payloadLo_iff hd).mp hg
    exact ⟨hlines, hrest, htxd, hsts, hrxd⟩
  | xfer | dbg | resp => simp [hd, SubState.waitsForHost] at hw

/-- The core's actions keep the fixed directions and the LOW levels (R24, R26, R27). -/
theorem linesOk_onPins {a : Action} {p : Pins} (hc : a.isCore = true) (h : linesOk p) : linesOk (a.onPins p) := by
  obtain ⟨hdirs, hbkpt, hrst⟩ := linesOk_iff.mp h
  cases a with
  | pinConfigure r d =>
    cases r with
    | clk | dout | din => cases hc
    | bkpt | rst => exact h
  | pinWrite r l =>
    cases r with
    | clk | dout => exact h
    | din => cases hc
    | bkpt =>
      cases l with
      | low => exact linesOk_iff.mpr ⟨hdirs, rfl, hrst⟩
      | high => cases hc
    | rst =>
      cases l with
      | low => exact linesOk_iff.mpr ⟨hdirs, hbkpt, rfl⟩
      | high => cases hc
  | pinRead | wait | hostRead | hostWrite => exact h

theorem linesOk_replay {actions : List Action} {p : Pins} (hc : ∀ a ∈ actions, a.isCore = true) (h : linesOk p) :
    linesOk (replay actions p) := by
  induction actions generalizing p with
  | nil => exact h
  | cons a actions ih =>
    obtain ⟨ha, hactions⟩ := List.forall_mem_cons.mp hc
    exact ih hactions (linesOk_onPins ha h)

/-- A run of the core's actions keeps the fixed directions and the LOW levels. -/
theorem RunsTo.linesOk (hrun : RunsTo s t) (h : linesOk s.pins) : linesOk t.pins := by
  obtain ⟨actions, hp⟩ := hrun
  rw [hp.pins]
  exact linesOk_replay hp.core h

/-- Action n of R111 takes the pins before it to the pins before action n + 1. -/
theorem debugPinsOk_succ {withReset : Bool} {n : Nat} {q : Request} (hq : debugRequest withReset n = some q) {p : Pins}
    (h : debugPinsOk withReset n p) : debugPinsOk withReset (n + 1) (replay q.asAction p) := by
  cases n with
  | zero => cases hq
  | succ i =>
    obtain ⟨hi, rfl⟩ := List.getElem?_eq_some_iff.mp hq
    cases withReset
    · have hi5 : i < 5 := hi
      interval_cases i <;>
        simp_all [debugPinsOk, debugSequence, Request.asAction, replay, Action.onPins, breakpointBefore,
          resetLineBefore]
    · have hi10 : i < 10 := hi
      interval_cases i <;>
        simp_all [debugPinsOk, debugSequence, Request.asAction, replay, Action.onPins, breakpointBefore,
          resetLineBefore]

/-! Reading a frame -/

/-- The sub-state in which the command of a frame begins, once its bytes are read (R29). -/
def firstSubState : Instr → SubState
  | .ping => .resp pingResponse
  | .breakpoint => .dbg 1
  | .reset => .dbg 1
  | .sendReceive _ => .xfer 0 .drive
  | .send _ => .xfer 0 .drive
  | .receive => .xfer 0 .drive
  | .unknown _ => .resp nakResponse

/-- The registers and the sub-state in which the command of a frame begins (R29, R30). -/
def commandStart (i : Instr) (s : State) : State :=
  { s with cmd := commandByte i, txd := (sentWord i).getD 0#16, disp := firstSubState i }

/-- Every command begins in a good state, when it begins at rest. -/
theorem commandStart_good (i : Instr) (hlines : linesOk s.pins) (hrest : atRest s.pins = true) :
    (commandStart i s).good = true := by
  have hpins := atRest_iff.mp hrest
  cases i with
  | ping | unknown => exact (good_resp_iff rfl).mpr ⟨hlines, hrest, List.cons_ne_nil _ _⟩
  | breakpoint =>
    have hlen : 1 ≤ (debugSequence false).length := by decide
    exact (good_dbg_iff (n := 1) rfl).mpr ⟨hlines, .inl rfl, ⟨le_rfl, hlen⟩, hpins⟩
  | reset =>
    have hlen : 1 ≤ (debugSequence true).length := by decide
    exact (good_dbg_iff (n := 1) rfl).mpr ⟨hlines, .inr rfl, ⟨le_rfl, hlen⟩, hpins⟩
  | sendReceive | send => exact (good_xfer_iff (k := 0) (ph := .drive) rfl).mpr ⟨hlines, hpins, .inl rfl⟩
  | receive => exact (good_xfer_iff (k := 0) (ph := .drive) rfl).mpr ⟨hlines, hpins, .inr ⟨rfl, rfl⟩⟩

/-- A frame that is its command byte alone begins its command at once, and sends no word but 0 (R29, R62, R69). -/
theorem commandStart_of_single_byte {i : Instr} {c : Byte} (hwf : i.wellFormed = true) (henc : encode i = [c]) :
    commandByte i = c ∧ afterCommandByte c = firstSubState i ∧ (sentWord i).getD 0#16 = 0#16 := by
  cases i with
  | ping | breakpoint | reset | receive => cases henc; exact ⟨rfl, rfl, rfl⟩
  | sendReceive | send => cases henc
  | unknown b =>
    cases henc
    simp only [Instr.wellFormed, isCommandByte, Bool.not_eq_true', Bool.or_eq_false_iff] at hwf
    exact ⟨rfl, by simp_all [afterCommandByte, carriesPayload, firstSubState], rfl⟩

theorem afterCommandByte_payload {c : Byte} (hc : carriesPayload c = true) : afterCommandByte c = .payloadHi := by
  rcases carriesPayload_iff.mp hc with rfl | rfl <;> rfl

theorem microStep_hold (hw : s.disp.waitsForHost = true) (hi : s.input = []) : microStep s = .next s := by
  cases hd : s.disp with
  | idle | payloadHi | payloadLo => simp [microStep, hd, hostRead, hi]
  | xfer | dbg | resp => simp [hd, SubState.waitsForHost] at hw

theorem microStep_idle_cons {c : Byte} {rest : List Byte} (hd : s.disp = .idle) (hi : s.input = c :: rest) :
    microStep s =
      .next { s with
        input := rest, trace := s.trace ++ [.hostRead c]
        cmd := c, txd := txdAfterCommandByte c s.txd, disp := afterCommandByte c } := by
  simp [microStep, hd, hostRead, hi, State.record]

theorem microStep_payloadHi_cons {b : Byte} {rest : List Byte} (hd : s.disp = .payloadHi) (hi : s.input = b :: rest) :
    microStep s =
      .next { s with
        input := rest, trace := s.trace ++ [.hostRead b], txd := withHighByte b s.txd, disp := .payloadLo } := by
  simp [microStep, hd, hostRead, hi, State.record]

theorem microStep_payloadLo_cons {b : Byte} {rest : List Byte} (hd : s.disp = .payloadLo) (hi : s.input = b :: rest) :
    microStep s =
      .next { s with
        input := rest, trace := s.trace ++ [.hostRead b], txd := withLowByte b s.txd, disp := .xfer 0 .drive } := by
  simp [microStep, hd, hostRead, hi, State.record]

/-- The command of a frame of one byte begins with its HostRead (R29). -/
theorem microStep_starts_command {i : Instr} {c : Byte} {rest : List Byte} (hd : s.disp = .idle) (htxd : s.txd = 0)
    (hi : s.input = c :: rest) (hwf : i.wellFormed = true) (henc : encode i = [c]) :
    microStep s = .next (commandStart i (afterReads i rest s)) := by
  obtain ⟨hcmd, hafter, hword⟩ := commandStart_of_single_byte hwf henc
  have htxd' : txdAfterCommandByte c s.txd = 0 := by rw [htxd]; exact txdAfterCommandByte_zero c
  simp [microStep_idle_cons hd hi, commandStart, afterReads, henc, hcmd, hafter, hword, htxd']

/-- An action-level HostRead keeps the invariant (R29, R129). -/
theorem microStep_waiting_good (hg : s.good = true) (hw : s.disp.waitsForHost = true) (h : microStep s = .next t) :
    t.good = true := by
  cases hi : s.input with
  | nil =>
    rw [microStep_hold hw hi] at h
    cases h
    exact hg
  | cons b rest =>
    cases hd : s.disp with
    | idle =>
      obtain ⟨hlines, hrest, -, htxd, hsts, hrxd⟩ := (good_idle_iff hd).mp hg
      rcases decode_cases [b] with ⟨hb, -⟩ | ⟨c, _, ⟨rfl, rfl⟩, ⟨i, hwf, henc, -⟩ | ⟨hc, -⟩⟩
      · cases hb
      · rw [microStep_starts_command hd htxd hi hwf henc] at h
        cases h
        exact commandStart_good i hlines hrest
      · rw [microStep_idle_cons hd hi, htxd] at h
        cases h
        exact (good_payloadHi_iff (afterCommandByte_payload hc)).mpr
          ⟨hlines, hrest, hc, txdAfterCommandByte_zero b, hsts, hrxd⟩
    | payloadHi =>
      obtain ⟨hlines, hrest, hc, htxd, hsts, hrxd⟩ := (good_payloadHi_iff hd).mp hg
      rw [microStep_payloadHi_cons hd hi] at h
      cases h
      have hlow : lowByte (withHighByte b s.txd) = 0 := by rw [withHighByte, lowByte_payloadWord, htxd]; rfl
      exact (good_payloadLo_iff rfl).mpr ⟨hlines, hrest, hc, hlow, hsts, hrxd⟩
    | payloadLo =>
      obtain ⟨hlines, hrest, hc, -⟩ := (good_payloadLo_iff hd).mp hg
      rw [microStep_payloadLo_cons hd hi] at h
      cases h
      exact (good_xfer_iff (k := 0) (ph := .drive) rfl).mpr ⟨hlines, atRest_iff.mp hrest, .inl hc⟩
    | xfer | dbg | resp => simp [hd, SubState.waitsForHost] at hw

/-- The HostReads of a whole frame end where its command begins (R29, R52). -/
theorem microRun_reads_frame {i : Instr} {rest : List Byte} (hg : s.good = true) (hidle : s.disp = .idle)
    (hd : decode s.input = .ok (i, rest)) :
    microRun (encode i).length s = .next (commandStart i (afterReads i rest s)) := by
  obtain ⟨hwf, hi⟩ := decode_ok hd
  obtain ⟨-, -, -, htxd, -, -⟩ := (good_idle_iff hidle).mp hg
  cases i with
  | ping | breakpoint | reset | receive | unknown =>
    simp only [encode, List.length_singleton, microRun]
    rw [microStep_starts_command hidle htxd hi hwf rfl]
    rfl
  | sendReceive d | send d =>
    simp only [encode, List.length_cons, List.length_nil, microRun]
    rw [microStep_idle_cons hidle hi, andThen_next, microStep_payloadHi_cons rfl rfl, andThen_next,
      microStep_payloadLo_cons rfl rfl, andThen_next]
    simp [commandStart, afterReads, withLowByte, withHighByte, commandByte, sentWord, firstSubState, encode]

end Sys2Proof.Machine

/-! A command under way: the steps it still takes and the state it ends in, as functions of the sub-state and the
registers (R29, R30). Every action-level step takes one of the steps and keeps the end. -/

namespace Sys2Proof.Machine

variable {s t : State}

/-- The bits of the packet received so far (R30). -/
def State.received (s : State) : Packet := { status := s.sts, data := s.rxd }

/-- The packet with the bit of transfer k stored (R30, R100). -/
def packetWithBit (k : Nat) (b : Bit) (p : Packet) : Packet :=
  if k = 0 then { p with status := b } else { p with data := insertBit p.data (16 - k) b }

/-- A bit transfer from one of its steps on: the bit received, and the state after it (R90). -/
def transferRest (b : Bit) (ph : Phase) (s : State) : Bit × State :=
  match ph with
  | .drive => exchangeBit b s
  | .raise =>
    let s := wait .settle (pinWrite .clk .high s)
    let s := wait .settle (pinWrite .clk .low s)
    ((pinRead .din s).1.toBit, (pinRead .din s).2)
  | .lower =>
    let s := wait .settle (pinWrite .clk .low s)
    ((pinRead .din s).1.toBit, (pinRead .din s).2)
  | .sample => ((pinRead .din s).1.toBit, (pinRead .din s).2)

/-- The end of a packet command from before the last n data transfers on (R100, R125 to R127). -/
def packetTail (cmd : Byte) (txd : Word) (n : Nat) (p : Packet) (s : State) : State :=
  respond (packetResponse cmd { p with data := (exchangeData txd n p.data s).1 }) (exchangeData txd n p.data s).2

/-- The end of a packet command from inside transfer k on. -/
def packetEnd (cmd : Byte) (txd : Word) (k : Nat) (ph : Phase) (p : Packet) (s : State) : State :=
  packetTail cmd txd (16 - k) (packetWithBit k (transferRest (outboundBit txd k) ph s).1 p)
    (transferRest (outboundBit txd k) ph s).2

/-- The actions of debug-mode entry from action n on (R111). -/
def debugRest (withReset : Bool) (n : Nat) : List Action :=
  ((debugSequence withReset).drop (n - 1)).flatMap Request.asAction

/-- The state in which the command under way ends. The registers and the sub-state say how it goes on, and what it runs
on is the rest of the state. -/
def commandEnd (s : State) : State :=
  match s.disp with
  | .idle => s
  | .payloadHi => s
  | .payloadLo => s
  | .xfer k ph => packetEnd s.cmd s.txd k.val ph s.received (retire s)
  | .dbg n => respond ackResponse (afterActions (debugRest (s.cmd == 0x52#8) n) (retire s))
  | .resp q => respond q (retire s)

/-- Steps left in a bit transfer (R90). -/
def phaseSteps : Phase → Nat
  | .drive => 4
  | .raise => 3
  | .lower => 2
  | .sample => 1

/-- Bytes in the response of a packet command (R65). -/
def packetResponseLength (c : Byte) : Nat := if c = 0x73#8 then 1 else 4

/-- Action-level steps that the command under way still takes. -/
def stepsLeft (s : State) : Nat :=
  match s.disp with
  | .idle => 0
  | .payloadHi => 0
  | .payloadLo => 0
  | .xfer k ph => 4 * (16 - k.val) + phaseSteps ph + packetResponseLength s.cmd
  | .dbg n => (debugSequence (s.cmd == 0x52#8)).length + 2 - n
  | .resp q => q.length

section
variable {k : Fin 17} {ph : Phase} {n : Nat} {q : List Byte}

theorem commandEnd_waiting (hw : s.disp.waitsForHost = true) : commandEnd s = s := by
  cases hd : s.disp with
  | idle | payloadHi | payloadLo => simp [commandEnd, hd]
  | xfer | dbg | resp => simp [hd, SubState.waitsForHost] at hw

theorem commandEnd_xfer (hd : s.disp = .xfer k ph) :
    commandEnd s = packetEnd s.cmd s.txd k.val ph s.received (retire s) := by
  rw [commandEnd, hd]

theorem commandEnd_dbg (hd : s.disp = .dbg n) :
    commandEnd s = respond ackResponse (afterActions (debugRest (s.cmd == 0x52#8) n) (retire s)) := by
  rw [commandEnd, hd]

theorem commandEnd_resp (hd : s.disp = .resp q) : commandEnd s = respond q (retire s) := by
  rw [commandEnd, hd]

theorem stepsLeft_waiting (hw : s.disp.waitsForHost = true) : stepsLeft s = 0 := by
  cases hd : s.disp with
  | idle | payloadHi | payloadLo => simp [stepsLeft, hd]
  | xfer | dbg | resp => simp [hd, SubState.waitsForHost] at hw

theorem stepsLeft_xfer (hd : s.disp = .xfer k ph) :
    stepsLeft s = 4 * (16 - k.val) + phaseSteps ph + packetResponseLength s.cmd := by
  rw [stepsLeft, hd]

theorem stepsLeft_dbg (hd : s.disp = .dbg n) :
    stepsLeft s = (debugSequence (s.cmd == 0x52#8)).length + 2 - n := by
  rw [stepsLeft, hd]

theorem stepsLeft_resp (hd : s.disp = .resp q) : stepsLeft s = q.length := by
  rw [stepsLeft, hd]

end

/-- An action-level step inside a command: it answers a good state, takes one of the steps left and keeps the end. -/
structure Advances (s t : State) : Prop where
  step : microStep s = .next t
  good : t.good = true
  stepsLeft : stepsLeft t + 1 = stepsLeft s
  commandEnd : commandEnd t = commandEnd s

/-! The response -/

theorem response_advances {q : List Byte} (hd : s.disp = .resp q) (hg : s.good = true) : ∃ t, Advances s t := by
  obtain ⟨hlines, hrest, hq⟩ := (good_resp_iff hd).mp hg
  match q, hd with
  | [], _ => exact absurd rfl hq
  | [b], hd =>
    exact ⟨retire (hostWrite b s), microStep_resp hd, good_retire hlines hrest, by rw [stepsLeft_resp hd]; rfl,
      by rw [commandEnd_resp hd]; rfl⟩
  | b :: c :: q, hd =>
    exact ⟨{ hostWrite b s with disp := .resp (c :: q) }, microStep_resp hd,
      (good_resp_iff rfl).mpr ⟨hlines, hrest, List.cons_ne_nil _ _⟩, by rw [stepsLeft_resp hd]; rfl,
      by rw [commandEnd_resp hd, commandEnd_resp rfl]; rfl⟩

/-! Debug-mode entry -/

theorem debugRest_of_request {withReset : Bool} {n : Nat} {q : Request} (hq : debugRequest withReset n = some q) :
    debugRest withReset n = q.asAction ++ debugRest withReset (n + 1) := by
  cases n with
  | zero => cases hq
  | succ i =>
    obtain ⟨hi, rfl⟩ := List.getElem?_eq_some_iff.mp hq
    rw [debugRest, Nat.add_sub_cancel, List.drop_eq_getElem_cons hi, List.flatMap_cons]
    rfl

theorem debugRest_after_last (withReset : Bool) : debugRest withReset ((debugSequence withReset).length + 1) = [] := by
  simp [debugRest]

/-- After the last action of R111 both lines are released. -/
theorem atRest_of_debugPinsOk {withReset : Bool} {p : Pins}
    (h : debugPinsOk withReset ((debugSequence withReset).length + 1) p) : atRest p = true := by
  cases withReset <;> exact atRest_iff.mpr h

theorem debug_advances {n : Nat} (hd : s.disp = .dbg n) (hg : s.good = true) : ∃ t, Advances s t := by
  obtain ⟨hlines, hcmd, ⟨hn1, hn⟩, hpins⟩ := (good_dbg_iff hd).mp hg
  obtain ⟨q, hq⟩ : ∃ q, debugRequest (s.cmd == 0x52#8) n = some q := by
    obtain ⟨i, rfl⟩ := Nat.exists_eq_add_of_le' hn1
    exact ⟨_, List.getElem?_eq_getElem hn⟩
  have hstep : microStep s = _ := (microStep_dbg hd).trans (debugStep_action hq)
  have hpins' := debugPinsOk_succ hq hpins
  have hlines' := (microStep_runsTo hstep).linesOk hlines
  rcases hn.lt_or_eq with hlt | heq
  · have ht : afterDebugAction (s.cmd == 0x52#8) n = .dbg (n + 1) := if_pos hlt
    rw [ht] at hstep hlines'
    refine ⟨_, hstep, (good_dbg_iff rfl).mpr ⟨hlines', hcmd, ⟨by omega, hlt⟩, hpins'⟩, ?steps, ?finish⟩
    case steps =>
      rw [stepsLeft_dbg hd, stepsLeft_dbg rfl]
      change (debugSequence (s.cmd == 0x52#8)).length + 2 - (n + 1) + 1 = _
      omega
    case finish =>
      rw [commandEnd_dbg hd, commandEnd_dbg rfl, debugRest_of_request hq, afterActions_append]
      rfl
  · have ht : afterDebugAction (s.cmd == 0x52#8) n = .resp ackResponse := if_neg (by omega)
    rw [ht] at hstep hlines'
    have hrest : debugRest (s.cmd == 0x52#8) (n + 1) = [] := by rw [heq]; exact debugRest_after_last _
    refine ⟨_, hstep, (good_resp_iff rfl).mpr
      ⟨hlines', atRest_of_debugPinsOk (heq ▸ hpins'), List.cons_ne_nil _ _⟩, ?steps, ?finish⟩
    case steps =>
      rw [stepsLeft_dbg hd, stepsLeft_resp rfl, ← heq]
      change 0 + 1 + 1 = _
      omega
    case finish =>
      rw [commandEnd_dbg hd, commandEnd_resp rfl, debugRest_of_request hq, hrest, List.append_nil]
      rfl

/-! The packet -/

theorem packetTail_zero (cmd : Byte) (txd : Word) (p : Packet) (s : State) :
    packetTail cmd txd 0 p s = respond (packetResponse cmd p) s := rfl

/-- After transfer k the packet goes on with the first step of the next one (R100). -/
theorem packetTail_next (cmd : Byte) (txd : Word) {k : Nat} (hk : k < 16) (p : Packet) (s : State) :
    packetTail cmd txd (16 - k) p s = packetEnd cmd txd (k + 1) .drive p s := by
  obtain ⟨i, hi⟩ : ∃ i, 16 - k = i + 1 := ⟨15 - k, by omega⟩
  have hi' : 16 - (k + 1) = i := by omega
  simp [packetTail, packetEnd, hi, hi', exchangeData, outboundBit, packetWithBit, transferRest]

theorem packetEnd_drive (cmd : Byte) (txd : Word) (k : Nat) (p : Packet) (s : State) :
    packetEnd cmd txd k .drive p s =
      packetEnd cmd txd k .raise p (wait .settle (pinWrite .dout (.ofBit (outboundBit txd k)) s)) := rfl

theorem packetEnd_raise (cmd : Byte) (txd : Word) (k : Nat) (p : Packet) (s : State) :
    packetEnd cmd txd k .raise p s = packetEnd cmd txd k .lower p (wait .settle (pinWrite .clk .high s)) := rfl

theorem packetEnd_lower (cmd : Byte) (txd : Word) (k : Nat) (p : Packet) (s : State) :
    packetEnd cmd txd k .lower p s = packetEnd cmd txd k .sample p (wait .settle (pinWrite .clk .low s)) := rfl

theorem packetEnd_sample (cmd : Byte) (txd : Word) (k : Nat) (p : Packet) (s : State) :
    packetEnd cmd txd k .sample p s =
      packetTail cmd txd (16 - k) (packetWithBit k (pinRead .din s).1.toBit p) (pinRead .din s).2 := rfl

theorem packetResponse_length (c : Byte) (p : Packet) : (packetResponse c p).length = packetResponseLength c := by
  unfold packetResponse packetResponseLength
  split <;> rfl

/-- Storing a bit changes the received packet alone. -/
theorem storeBit_frame (k : Nat) (b : Bit) (s : State) :
    storeBit k b s =
      { s with sts := (packetWithBit k b s.received).status, rxd := (packetWithBit k b s.received).data } := by
  unfold storeBit packetWithBit
  split <;> rfl

theorem nextTransfer_of_lt {k : Fin 17} (hk : k.val + 1 < 17) (s : State) :
    nextTransfer k s = { s with disp := .xfer ⟨k.val + 1, hk⟩ .drive } := dif_pos hk

theorem nextTransfer_last {k : Fin 17} (hk : ¬ k.val + 1 < 17) (s : State) :
    nextTransfer k s = { s with disp := .resp (packetResponse s.cmd s.received) } := dif_neg hk

/-- What the sample of transfer k leaves: the pins and the frame's registers as they were, and its bit stored. -/
theorem storeBit_pinRead_frame (k : Nat) (b : Bit) (s : State) :
    (storeBit k b (pinRead .din s).2).pins = s.pins ∧ (storeBit k b (pinRead .din s).2).cmd = s.cmd ∧
      (storeBit k b (pinRead .din s).2).txd = s.txd ∧
      (storeBit k b (pinRead .din s).2).received = packetWithBit k b s.received ∧
      retire (storeBit k b (pinRead .din s).2) = (pinRead .din (retire s)).2 := by
  rw [keepsLink_retire.pinRead_din, storeBit_frame, pinRead_din_eq_setLink]
  exact ⟨rfl, rfl, rfl, rfl, rfl⟩

theorem sample_advances {k : Fin 17} (hd : s.disp = .xfer k .sample) (hg : s.good = true) : ∃ t, Advances s t := by
  obtain ⟨hlines, hclk, hcmd⟩ := (good_xfer_iff hd).mp hg
  obtain ⟨hvpins, hvcmd, hvtxd, hvreceived, hvretire⟩ :=
    storeBit_pinRead_frame k.val (pinRead .din s).1.toBit s
  have hend : commandEnd s = packetTail s.cmd s.txd (16 - k.val)
      (packetWithBit k.val (pinRead .din s).1.toBit s.received) (pinRead .din (retire s)).2 := by
    rw [commandEnd_xfer hd, packetEnd_sample, keepsLink_retire.pinRead_din]
  have hstep := (microStep_xfer hd).trans (transferStep_sample k s)
  generalize storeBit k.val (pinRead .din s).1.toBit (pinRead .din s).2 = v at *
  rw [← hvpins] at hlines hclk
  rw [← hvcmd] at hcmd hend
  rw [← hvtxd] at hcmd hend
  rw [← hvreceived, ← hvretire] at hend
  by_cases hk : k.val + 1 < 17
  · rw [nextTransfer_of_lt hk] at hstep
    refine ⟨_, hstep, (good_xfer_iff (ph := .drive) rfl).mpr ⟨hlines, hclk, hcmd⟩, ?steps, ?finish⟩
    case steps =>
      rw [stepsLeft_xfer hd, stepsLeft_xfer rfl, ← hvcmd]
      simp only [phaseSteps]
      omega
    case finish =>
      rw [hend, commandEnd_xfer rfl, packetTail_next _ _ (by omega)]
      rfl
  · rw [nextTransfer_last hk] at hstep
    have hk16 : k.val = 16 := by omega
    have hresponse := packetResponse_length v.cmd v.received
    have hne : packetResponse v.cmd v.received ≠ [] := by
      refine List.ne_nil_of_length_pos ?_
      rw [hresponse, packetResponseLength]
      split <;> decide
    refine ⟨_, hstep, (good_resp_iff rfl).mpr ⟨hlines, atRest_iff.mpr hclk, hne⟩, ?steps, ?finish⟩
    case steps =>
      rw [stepsLeft_xfer hd, stepsLeft_resp rfl, ← hvcmd, hresponse]
      simp only [phaseSteps]
      omega
    case finish =>
      rw [hend, commandEnd_resp rfl, hk16, packetTail_zero]
      rfl

/-- A step of R90 that writes a pin and waits leaves the rest of its transfer. -/
theorem pinPhase_advances {k : Fin 17} {ph next : Phase} {r : Role} {l : Level} (hd : s.disp = .xfer k ph)
    (hg : s.good = true)
    (hstep : transferStep k ph s = .next { wait .settle (pinWrite r l s) with disp := .xfer k next })
    (hclk : (s.pins.write r l).lat.clk = clockBefore next) (hsteps : phaseSteps next + 1 = phaseSteps ph)
    (hend : packetEnd s.cmd s.txd k.val ph s.received (retire s) =
      packetEnd s.cmd s.txd k.val next s.received (wait .settle (pinWrite r l (retire s)))) :
    ∃ t, Advances s t := by
  obtain ⟨hlines, ⟨-, hreleased⟩, hcmd⟩ := (good_xfer_iff hd).mp hg
  have hmicro := (microStep_xfer hd).trans hstep
  refine ⟨_, hmicro, (good_xfer_iff rfl).mpr
    ⟨(microStep_runsTo hmicro).linesOk hlines, ⟨hclk, hreleased⟩, hcmd⟩, ?steps, ?finish⟩
  case steps =>
    rw [stepsLeft_xfer hd, stepsLeft_xfer rfl, ← hsteps]
    simp only [wait_cmd, pinWrite_cmd]
    omega
  case finish =>
    rw [commandEnd_xfer hd, hend, commandEnd_xfer rfl]
    rfl

theorem transfer_advances {k : Fin 17} {ph : Phase} (hd : s.disp = .xfer k ph) (hg : s.good = true) :
    ∃ t, Advances s t := by
  cases ph with
  | drive =>
    obtain ⟨-, ⟨hclk, -⟩, -⟩ := (good_xfer_iff hd).mp hg
    exact pinPhase_advances hd hg (transferStep_drive k s) hclk rfl (packetEnd_drive _ _ _ _ _)
  | raise => exact pinPhase_advances hd hg (transferStep_raise k s) rfl rfl (packetEnd_raise _ _ _ _ _)
  | lower => exact pinPhase_advances hd hg (transferStep_lower k s) rfl rfl (packetEnd_lower _ _ _ _ _)
  | sample => exact sample_advances hd hg

/-- From every good state inside a command, the action-level step advances the command (R29, R48). -/
theorem microStep_advances (hg : s.good = true) (hw : s.disp.waitsForHost = false) : ∃ t, Advances s t := by
  cases hd : s.disp with
  | idle | payloadHi | payloadLo => simp [hd, SubState.waitsForHost] at hw
  | xfer k ph => exact transfer_advances hd hg
  | dbg n => exact debug_advances hd hg
  | resp q => exact response_advances hd hg

/-- Settles O50: a step that waits for the host reads at most a byte, and every other one advances its command. -/
theorem subStepsKeepGood : Obligations.SubStepsKeepGood := by
  intro s t hg h
  cases hw : s.disp.waitsForHost with
  | true => exact microStep_waiting_good hg hw h
  | false =>
    obtain ⟨u, hu⟩ := microStep_advances hg hw
    obtain rfl : u = t := by simpa [hu.step] using h
    exact hu.good

/-! The rest of a command -/

theorem waitsForHost_of_stepsLeft_zero (hg : s.good = true) (h : stepsLeft s = 0) : s.disp.waitsForHost = true := by
  by_contra hw
  obtain ⟨t, ht⟩ := microStep_advances hg (by simpa using hw)
  have := ht.stepsLeft
  omega

/-- Up to n action-level steps of a command under way: they succeed, and the state after them has as many fewer steps
left and the same end. -/
theorem microRun_advances {n : Nat} (hg : s.good = true) (hn : n ≤ stepsLeft s) :
    ∃ t, microRun n s = .next t ∧ t.good = true ∧ stepsLeft t + n = stepsLeft s ∧ commandEnd t = commandEnd s := by
  induction n generalizing s with
  | zero => exact ⟨s, rfl, hg, rfl, rfl⟩
  | succ n ih =>
    have hw : s.disp.waitsForHost = false := by
      by_contra hw
      have := stepsLeft_waiting (by simpa using hw)
      omega
    obtain ⟨u, hu⟩ := microStep_advances hg hw
    have hsteps := hu.stepsLeft
    obtain ⟨t, hrun, ht, htsteps, htend⟩ := ih hu.good (by omega)
    exact ⟨t, by rw [microRun, hu.step, andThen_next, hrun], ht, by omega, htend.trans hu.commandEnd⟩

/-- As many steps as are left end the command (R48). -/
theorem microRun_stepsLeft (hg : s.good = true) :
    microRun (stepsLeft s) s = .next (commandEnd s) ∧ (commandEnd s).good = true ∧
      (commandEnd s).disp.waitsForHost = true := by
  obtain ⟨t, hrun, ht, hsteps, hend⟩ := microRun_advances hg (le_refl _)
  have hw := waitsForHost_of_stepsLeft_zero ht (by omega)
  rw [commandEnd_waiting hw] at hend
  subst hend
  exact ⟨hrun, ht, hw⟩

/-- Running to the next HostRead ends the command, given at least the steps left. -/
theorem runToHostRead_eq_commandEnd {n : Nat} (hg : s.good = true) (hn : stepsLeft s ≤ n) :
    runToHostRead n s = .next (commandEnd s) := by
  induction n generalizing s with
  | zero =>
    rw [runToHostRead, commandEnd_waiting (waitsForHost_of_stepsLeft_zero hg (by omega))]
  | succ n ih =>
    rw [runToHostRead]
    split
    next hw => rw [commandEnd_waiting hw]
    next hw =>
      obtain ⟨t, ht⟩ := microStep_advances hg (by simpa using hw)
      have hsteps := ht.stepsLeft
      rw [ht.step, andThen_next, ih ht.good (by omega), ht.commandEnd]

/-- `stepsToEnd` is enough for every command. -/
theorem stepsLeft_le_stepsToEnd (hg : s.good = true) : stepsLeft s ≤ stepsToEnd s.disp := by
  cases hd : s.disp with
  | idle | payloadHi | payloadLo => simp [stepsLeft, hd]
  | xfer k ph =>
    have hphase : phaseSteps ph ≤ 4 := by cases ph <;> decide
    have hresponse : packetResponseLength s.cmd ≤ 4 := by unfold packetResponseLength; split <;> decide
    rw [stepsLeft_xfer hd, stepsToEnd]
    omega
  | dbg n =>
    obtain ⟨-, -, ⟨hn, -⟩, -⟩ := (good_dbg_iff hd).mp hg
    have hlength : (debugSequence (s.cmd == 0x52#8)).length ≤ 10 := by cases s.cmd == 0x52#8 <;> decide
    rw [stepsLeft_dbg hd, stepsToEnd]
    omega
  | resp q =>
    rw [stepsLeft_resp hd, stepsToEnd]
    omega

/-- A step from inside a command ends where the command ends (R48; log 14). -/
theorem step_inside_eq_commandEnd (hg : s.good = true) (hw : s.disp.waitsForHost = false) :
    step s = .next (commandEnd s) := by
  rw [step, hw, if_neg (by simp), finishCommand, runToHostRead_eq_commandEnd hg (stepsLeft_le_stepsToEnd hg)]

end Sys2Proof.Machine

/-! The step keeps the invariant (R27, R48). -/

namespace Sys2Proof.Machine

variable {s t : State}

theorem atRest_exchangeBit (b : Bit) (h : atRest s.pins = true) : atRest (exchangeBit b s).2.pins = true := by
  obtain ⟨-, hreleased⟩ := atRest_iff.mp h
  obtain ⟨l, n, target, he⟩ := exchangeBit_frame b s
  rw [he]
  exact atRest_iff.mpr ⟨rfl, hreleased⟩

theorem atRest_exchangeData (d : Word) (n : Nat) (got : Word) (h : atRest s.pins = true) :
    atRest (exchangeData d n got s).2.pins = true := by
  induction n generalizing got s with
  | zero => exact h
  | succ n ih => exact ih _ (atRest_exchangeBit _ h)

theorem atRest_exchangePacket (d : Word) (h : atRest s.pins = true) : atRest (exchangePacket d s).2.pins = true := by
  rw [exchangePacket]
  exact atRest_exchangeData d _ _ (atRest_exchangeBit false h)

/-- A command begun at rest is at rest before its response (R27 (c)). -/
theorem atRest_beforeResponse (i : Instr) (h : atRest s.pins = true) :
    atRest (beforeResponse i s).2.pins = true := by
  obtain ⟨hclk, -, hrst⟩ := atRest_iff.mp h
  cases i with
  | ping | unknown => exact h
  | breakpoint =>
    rw [beforeResponse, enterDebugMode_eq, replay_debugActions_false]
    exact atRest_iff.mpr ⟨hclk, rfl, hrst⟩
  | reset =>
    rw [beforeResponse, enterDebugMode_eq, replay_debugActions_true]
    exact atRest_iff.mpr ⟨hclk, rfl, rfl⟩
  | sendReceive d | send d => exact atRest_exchangePacket d h
  | receive => exact atRest_exchangePacket 0 h

/-- A command begun at rest ends idle, good and at rest. -/
theorem exec_keeps_good {i : Instr} (hlines : linesOk s.pins) (hrest : atRest s.pins = true)
    (h : exec i s = .next t) : t.good = true ∧ t.disp = .idle ∧ atRest t.pins = true := by
  have hlines' := (exec_runsTo h).linesOk hlines
  have hrest' := atRest_beforeResponse i hrest
  rw [exec_eq_respond] at h
  cases h
  rw [respond_eq] at hlines' ⊢
  exact ⟨(good_idle_iff rfl).mpr ⟨hlines', hrest', rfl, rfl, rfl, rfl⟩, rfl, hrest'⟩

theorem readBytes_pins (n : Nat) (s : State) : (readBytes n s).pins = s.pins := by
  rw [readBytes_eq]

/-- Where one byte of a frame at most has been read, nothing has been stored in TXD. -/
theorem txd_of_pendingFrame_length (hg : s.good = true) (hw : s.disp.waitsForHost = true)
    (hp : (pendingFrame s).length ≤ 1) : s.txd = 0 := by
  cases hd : s.disp with
  | idle =>
    obtain ⟨-, -, -, htxd, -⟩ := (good_idle_iff hd).mp hg
    exact htxd
  | payloadHi =>
    obtain ⟨-, -, -, htxd, -⟩ := (good_payloadHi_iff hd).mp hg
    exact htxd
  | payloadLo => simp [pendingFrame, hd] at hp
  | xfer | dbg | resp => simp [hd, SubState.waitsForHost] at hw

/-- Holding in the middle of a frame keeps the invariant: the bytes of the frame so far are those of the sub-state
(R29, R129). -/
theorem hold_keeps_good {why : DecodeReject} (hg : s.good = true) (hw : s.disp.waitsForHost = true)
    (hd : decode (pendingFrame s ++ s.input) = .error why) :
    (enterHold why (readBytes s.input.length s)).good = true ∧
      (enterHold why (readBytes s.input.length s)).disp.waitsForHost = true := by
  obtain ⟨hlines, hrest, hlow, hsts, hrxd⟩ := good_waiting hg hw
  rw [readBytes_eq]
  rcases decode_error hd with ⟨hbytes, rfl⟩ | ⟨c, hc, hbytes, rfl⟩ | ⟨c, b, hc, hbytes, rfl⟩
  · obtain ⟨-, hi⟩ := List.append_eq_nil_iff.mp hbytes
    have hsame : enterHold .noCommandByte
        { s with
          input := s.input.drop s.input.length
          trace := s.trace ++ (s.input.take s.input.length).map .hostRead } = s := by
      cases s
      simp_all [enterHold]
    rw [hsame]
    exact ⟨hg, hw⟩
  · have hp : (pendingFrame s).length ≤ 1 := by
      have := congrArg List.length hbytes
      rw [List.length_append, List.length_singleton] at this
      omega
    have htxd := txd_of_pendingFrame_length hg hw hp
    exact ⟨(good_payloadHi_iff rfl).mpr ⟨hlines, hrest, hc, htxd, hsts, hrxd⟩, rfl⟩
  · refine ⟨(good_payloadLo_iff rfl).mpr ⟨hlines, hrest, hc, ?_, hsts, hrxd⟩, rfl⟩
    exact (lowByte_payloadWord b _).trans hlow

/-- Settles O51: a waiting machine holds or runs a command from rest, and one inside a command runs to its end. -/
theorem stepsKeepGood : Obligations.StepsKeepGood := by
  intro s t hg h
  suffices ht : t.good = true ∧ t.disp.waitsForHost = true by
    obtain ⟨hgood, hwaits⟩ := ht
    obtain ⟨-, hrest, -⟩ := good_waiting hgood hwaits
    exact ⟨hgood, hwaits, hrest⟩
  cases hw : s.disp.waitsForHost with
  | true =>
    obtain ⟨hlines, hrest, -⟩ := good_waiting hg hw
    cases hd : decode (pendingFrame s ++ s.input) with
    | ok p =>
      rw [step_of_decode_ok hw hd] at h
      obtain ⟨hgood, hidle, -⟩ :=
        exec_keeps_good (by rwa [readBytes_pins]) (by rwa [readBytes_pins]) h
      exact ⟨hgood, by rw [hidle]; rfl⟩
    | error why =>
      rw [step_of_decode_error hw hd] at h
      cases h
      exact hold_keeps_good hg hw hd
  | false =>
    rw [step_inside_eq_commandEnd hg hw] at h
    cases h
    obtain ⟨-, hgood, hwaits⟩ := microRun_stepsLeft hg
    exact ⟨hgood, hwaits⟩

end Sys2Proof.Machine

/-! The action-level machine and the command step (R29, R48). -/

namespace Sys2Proof.Machine

variable {s t : State}

theorem microRun_add (m n : Nat) (s : State) : microRun (m + n) s = andThen (microRun m s) (microRun n) := by
  induction m generalizing s with
  | zero => rw [Nat.zero_add]; rfl
  | succ m ih =>
    rw [Nat.succ_add, microRun, microRun]
    cases microStep s with
    | next u => exact ih u
    | fault | refused => rfl

/-- From its first step on a packet command exchanges its packet and responds (R100, R125 to R127). -/
theorem packetEnd_start (cmd : Byte) (txd : Word) (s : State) :
    packetEnd cmd txd 0 .drive { status := false, data := 0#16 } s =
      respond (packetResponse cmd (exchangePacket txd s).1) (exchangePacket txd s).2 := by
  simp [packetEnd, packetTail, exchangePacket, outboundBit, packetWithBit, transferRest, Config.dataBits]

/-- The packet commands end in the response to their packet (R125 to R127). -/
theorem commandEnd_commandStart_packet {i : Instr} {d : Word} (hword : sentWord i = some d) (hsts : s.sts = false)
    (hrxd : s.rxd = 0) :
    commandEnd (commandStart i s) =
      respond (packetResponse (commandByte i) (exchangePacket d (retire s)).1) (exchangePacket d (retire s)).2 := by
  have hdisp : (commandStart i s).disp = .xfer 0 .drive := by cases i <;> cases hword <;> rfl
  have hreceived : (commandStart i s).received = { status := false, data := 0#16 } := by
    simp [State.received, commandStart, hsts, hrxd]
  have htxd : (commandStart i s).txd = d := by simp [commandStart, hword]
  rw [commandEnd_xfer hdisp, hreceived, htxd]
  exact packetEnd_start _ d (retire s)

/-- The command that its registers and sub-state begin ends where `exec` does (R122 to R128). -/
theorem exec_eq_commandEnd (i : Instr) (hsts : s.sts = false) (hrxd : s.rxd = 0) :
    exec i s = .next (commandEnd (commandStart i s)) := by
  rw [← exec_retire, exec_eq_respond]
  cases i with
  | ping | unknown => rfl
  | breakpoint | reset =>
    rw [commandEnd_dbg rfl, beforeResponse, enterDebugMode_eq_afterActions]
    rfl
  | sendReceive d | send d | receive =>
    rw [commandEnd_commandStart_packet rfl hsts hrxd]
    simp [beforeResponse, packetResponse, commandByte]

/-- The whole frame takes its HostReads and the steps left when its command begins. -/
theorem stepsLeft_commandStart (i : Instr) (s : State) :
    (encode i).length + stepsLeft (commandStart i s) = microCount i := by
  cases i <;> rfl

/-- From a good idle state with a whole frame: its HostReads lead into its command, whose end is that of the step. -/
theorem step_eq_commandEnd {i : Instr} {rest : List Byte} (hg : s.good = true) (hidle : s.disp = .idle)
    (hd : decode s.input = .ok (i, rest)) : step s = .next (commandEnd (commandStart i (afterReads i rest s))) := by
  obtain ⟨-, -, -, -, hsts, hrxd⟩ := (good_idle_iff hidle).mp hg
  rw [step_idle_of_decode_ok hidle hd]
  exact exec_eq_commandEnd (s := afterReads i rest s) i hsts hrxd

theorem commandStart_afterReads_good {i : Instr} {rest : List Byte} (hg : s.good = true) (hidle : s.disp = .idle) :
    (commandStart i (afterReads i rest s)).good = true := by
  obtain ⟨hlines, hrest, -⟩ := (good_idle_iff hidle).mp hg
  exact commandStart_good (s := afterReads i rest s) i hlines hrest

/-- Settles O45: the HostReads of the frame, and then as many steps as its command has left. -/
theorem subStatesRefineCommand : Obligations.SubStatesRefineCommand := by
  intro i rest s hg hidle hd
  obtain ⟨hrun, -⟩ := microRun_stepsLeft (commandStart_afterReads_good (i := i) (rest := rest) hg hidle)
  rw [step_eq_commandEnd hg hidle hd, ← stepsLeft_commandStart i (afterReads i rest s), microRun_add,
    microRun_reads_frame hg hidle hd, andThen_next, hrun]

/-- Before all bytes of its frame are read, a command has not begun. -/
theorem microRun_within_reads_waits {i : Instr} {rest : List Byte} {n : Nat} (hidle : s.disp = .idle)
    (hd : decode s.input = .ok (i, rest)) (hn : n < (encode i).length) (h : microRun n s = .next t) :
    t.disp.waitsForHost = true := by
  obtain ⟨-, hi⟩ := decode_ok hd
  match n with
  | 0 => cases h; rw [hidle]; rfl
  | 1 =>
    cases i with
    | ping | breakpoint | reset | receive | unknown => simp [encode] at hn
    | sendReceive d | send d =>
      rw [microRun, microStep_idle_cons hidle hi] at h
      cases h
      rfl
  | 2 =>
    cases i with
    | ping | breakpoint | reset | receive | unknown => simp [encode] at hn
    | sendReceive d | send d =>
      rw [microRun, microStep_idle_cons hidle hi, andThen_next, microRun, microStep_payloadHi_cons rfl rfl] at h
      cases h
      rfl
  | n + 3 => cases i <;> simp [encode] at hn

/-- Settles O46: a state inside the command lies among the steps after its HostReads, which keep its end. -/
theorem commandResumesAnywhere : Obligations.CommandResumesAnywhere := by
  intro i rest s t n hg hidle hd hn hrun hinside
  have hreads : (encode i).length ≤ n := by
    by_contra hlt
    rw [microRun_within_reads_waits hidle hd (by omega) hrun] at hinside
    cases hinside
  obtain ⟨m, rfl⟩ := Nat.exists_eq_add_of_le hreads
  have hm : m ≤ stepsLeft (commandStart i (afterReads i rest s)) := by
    have := stepsLeft_commandStart i (afterReads i rest s)
    omega
  obtain ⟨u, hu, hgood, -, hend⟩ := microRun_advances (commandStart_afterReads_good (rest := rest) hg hidle) hm
  rw [microRun_add, microRun_reads_frame hg hidle hd, andThen_next, hu] at hrun
  cases hrun
  rw [step_inside_eq_commandEnd hgood hinside, hend, step_eq_commandEnd hg hidle hd]

end Sys2Proof.Machine

/-! The frame at the dispatcher: its payload word, its HostReads, and the order of a step's actions (R42, R52, R120). -/

namespace Sys2Proof

/-- The payload word is the first byte followed by the second (R42). -/
theorem payloadWord_eq_append (h l : Byte) : payloadWord h l = h ++ l := by
  apply BitVec.eq_of_getLsbD_eq
  intro i _
  rw [payloadWord_bit, BitVec.getLsbD_append]

/-- The second byte is below 2 ^ 8, so the bits of the two bytes add up. -/
theorem payloadWord_toNat (h l : Byte) : (payloadWord h l).toNat = h.toNat * 256 + l.toNat := by
  rw [payloadWord_eq_append, BitVec.toNat_append, ← Nat.shiftLeft_add_eq_or_of_lt l.isLt, Nat.shiftLeft_eq]

/-- Settles O6: the word by its two bytes; both command bytes are literals, so the decoder computes. -/
theorem payloadIsBigEndian : Obligations.PayloadIsBigEndian :=
  fun h l _ => ⟨payloadWord_toNat h l, rfl, rfl⟩

end Sys2Proof

namespace Sys2Proof.Machine

variable {s t : State}

/-- Settles O37: the whole frame stands at the head of the stream, and the fetch reads just its bytes. -/
theorem stepRunsDecodedFrame : Obligations.StepRunsDecodedFrame :=
  fun _ _ _ hidle hd => step_idle_of_decode_ok hidle hd

theorem mem_readBytesOf {actions : List Action} {b : Byte} (h : .hostRead b ∈ actions) : b ∈ readBytesOf actions := by
  obtain ⟨before, after, rfl⟩ := List.append_of_mem h
  simp [readBytesOf_append, readBytesOf]

theorem mem_writtenBytes {actions : List Action} {b : Byte} (h : .hostWrite b ∈ actions) : b ∈ writtenBytes actions := by
  obtain ⟨before, after, rfl⟩ := List.append_of_mem h
  simp [writtenBytes_append, writtenBytes]

/-- Actions that leave both streams as they were hold no host action (R31, R120). -/
theorem Performs.no_host_action {actions : List Action} (hp : Performs actions s t) (hinput : t.input = s.input)
    (houtput : t.output = s.output) : ∀ a ∈ actions, ∀ b, a ≠ .hostRead b ∧ a ≠ .hostWrite b := by
  have hread : readBytesOf actions = [] := by simpa [hinput] using hp.input
  have hwritten : writtenBytes actions = [] := by simpa [houtput] using hp.output
  intro a ha b
  constructor
  · rintro rfl
    simpa [hread] using mem_readBytesOf ha
  · rintro rfl
    simpa [hwritten] using mem_writtenBytes ha

theorem exchangeBit_output (b : Bit) (s : State) : (exchangeBit b s).2.output = s.output := by
  obtain ⟨l, n, target, he⟩ := exchangeBit_frame b s
  rw [he]

theorem exchangeData_output (d : Word) (n : Nat) (got : Word) (s : State) :
    (exchangeData d n got s).2.output = s.output := by
  induction n generalizing got s with
  | zero => rfl
  | succ i ih => exact (ih _ _).trans (exchangeBit_output (bitOf d i) s)

theorem exchangePacket_output (d : Word) (s : State) : (exchangePacket d s).2.output = s.output :=
  (exchangeData_output d Config.dataBits 0 _).trans (exchangeBit_output false s)

/-- A command writes nothing to the host before its response (R52). -/
theorem beforeResponse_output (i : Instr) (s : State) : (beforeResponse i s).2.output = s.output := by
  cases i with
  | ping | unknown => rfl
  | breakpoint | reset => simp only [beforeResponse, enterDebugMode_eq]
  | sendReceive | send | receive => exact exchangePacket_output _ s

/-- What a command does before its response is a run of the core's actions (R155). -/
theorem beforeResponse_runsTo (i : Instr) (s : State) : RunsTo s (beforeResponse i s).2 := by
  cases i with
  | ping | unknown => exact .refl s
  | breakpoint | reset => exact enterDebugMode_runsTo _ s
  | sendReceive | send | receive => exact exchangePacket_runsTo _ s

/-- A command performs actions on the pins and waits alone, and then writes its response (R52, R122 to R128). -/
theorem exec_pins_then_writes (i : Instr) (s : State) :
    ∃ t pins response,
      exec i s = .next t ∧ t.trace = s.trace ++ pins ++ response.map .hostWrite ∧
        (∀ a ∈ pins, ∀ b, a ≠ .hostRead b ∧ a ≠ .hostWrite b) ∧ t.output = s.output ++ response := by
  obtain ⟨pins, hp⟩ := beforeResponse_runsTo i s
  have houtput := beforeResponse_output i s
  refine ⟨_, pins, (beforeResponse i s).1, exec_eq_respond i s, ?trace,
    hp.no_host_action (beforeResponse_input i s) houtput, ?output⟩
  case trace => rw [respond_eq, hp.trace]
  case output => rw [respond_eq, houtput]

/-- Settles O38: the step reads the frame, and its command then does the rest. -/
theorem readsThenPinsThenWrites : Obligations.ReadsThenPinsThenWrites := by
  intro i rest s hidle hd
  rw [step_idle_of_decode_ok hidle hd]
  exact exec_pins_then_writes i (afterReads i rest s)

end Sys2Proof.Machine

/-! The encoding as a round trip, the length of a frame, and the bytes that are Unknown (R60 to R64, R68). -/

namespace Sys2Proof

theorem wellFormed_unknown {b : Byte} : (Instr.unknown b).wellFormed = true ↔ isCommandByte b = false := by
  rw [Instr.wellFormed, Bool.not_eq_true']

/-- A byte outside the six of R61 fails every match of the decoder (R68). -/
theorem decode_of_not_command {b : Byte} (hb : isCommandByte b = false) (rest : List Byte) :
    decode (b :: rest) = .ok (.unknown b, rest) := by
  simp only [isCommandByte, Bool.or_eq_false_iff, beq_eq_false_iff_ne] at hb
  obtain ⟨⟨⟨⟨⟨hP, hB⟩, hR⟩, hS⟩, hs⟩, hr⟩ := hb
  simp only [decode, if_neg hP, if_neg hB, if_neg hR, if_neg hS, if_neg hs, if_neg hr]

/-- Settles O1, frame by frame: a payload decodes to the word of its two bytes, which are the halves of the word encoded. -/
theorem decodeOfEncode : Obligations.DecodeOfEncode := by
  intro i rest hwf
  cases i with
  | ping | breakpoint | reset | receive => rfl
  | sendReceive d =>
    obtain ⟨-, hdecode, -⟩ := payloadIsBigEndian (highByte d) (lowByte d) rest
    rwa [payloadWord_halves] at hdecode
  | send d =>
    obtain ⟨-, -, hdecode⟩ := payloadIsBigEndian (highByte d) (lowByte d) rest
    rwa [payloadWord_halves] at hdecode
  | unknown b => exact decode_of_not_command (wellFormed_unknown.mp hwf) rest

/-- Settles O2, by the decoder's inversion. -/
theorem encodeOfDecode : Obligations.EncodeOfDecode := fun _ _ _ => decode_ok

/-- Settles O3: a frame that does not decode misses a byte, and the decoder rejects each frame that does. -/
theorem decodeRejectsOnlyIncompleteFrames : Obligations.DecodeRejectsOnlyIncompleteFrames := by
  intro bs
  constructor
  · rintro ⟨why, hd⟩
    rcases decode_error hd with ⟨rfl, -⟩ | ⟨c, hc, rfl, -⟩ | ⟨c, h, hc, rfl, -⟩
    · exact .inl rfl
    · exact .inr ⟨c, carriesPayload_iff.mp hc, .inl rfl⟩
    · exact .inr ⟨c, carriesPayload_iff.mp hc, .inr ⟨h, rfl⟩⟩
  · rintro (rfl | ⟨c, hc, rfl | ⟨h, rfl⟩⟩)
    · exact ⟨_, rfl⟩
    · exact ⟨_, decode_payload_nil (carriesPayload_iff.mpr hc)⟩
    · exact ⟨_, decode_payload_singleton (carriesPayload_iff.mpr hc) h⟩

theorem frameShape (i : Instr) : Laws.FrameShape.Statement i := by
  cases i with
  | ping => exact Laws.FrameShape.ping
  | breakpoint => exact Laws.FrameShape.breakpoint
  | reset => exact Laws.FrameShape.reset
  | sendReceive d => exact Laws.FrameShape.sendReceive d
  | send d => exact Laws.FrameShape.send d
  | receive => exact Laws.FrameShape.receive
  | unknown b => exact Laws.FrameShape.unknown b

theorem frameLength_eq (c : Byte) : frameLength c = if c = 0x53#8 ∨ c = 0x73#8 then 3 else 1 := by
  simp only [frameLength, carriesPayload_iff, Config.payloadBytes]

/-- Settles O4: what decodes is an encoded frame, which begins with its command byte and is as long as that byte says. -/
theorem commandByteDecidesLength : Obligations.CommandByteDecidesLength := by
  refine ⟨frameLength_eq, fun c bs i rest hd => ?_⟩
  obtain ⟨hwf, hbytes⟩ := decode_ok hd
  obtain ⟨hhead, hlength⟩ := frameShape i
  have hc : c = commandByte i := by
    have h : (c :: bs).head? = some (commandByte i) := by rw [hbytes, List.head?_append, hhead, Option.some_or]
    exact Option.some.inj h
  rw [hbytes, List.length_append, hlength hwf, hc]

/-- A byte decodes to Unknown exactly when it is none of the six (R68). -/
theorem decode_unknown_iff (b : Byte) (rest : List Byte) :
    decode (b :: rest) = .ok (.unknown b, rest) ↔ isCommandByte b = false :=
  ⟨fun hd => wellFormed_unknown.mp (decode_ok hd).1, fun hb => decode_of_not_command hb rest⟩

/-- The six command bytes cut the byte values into the five ranges of R68. -/
theorem not_command_iff_ranges (b : Byte) :
    isCommandByte b = false ↔
      b.toNat ≤ 0x41 ∨ (0x43 ≤ b.toNat ∧ b.toNat ≤ 0x4F) ∨ b.toNat = 0x51 ∨ (0x54 ≤ b.toNat ∧ b.toNat ≤ 0x71) ∨
        0x74 ≤ b.toNat := by
  simp only [isCommandByte, Bool.or_eq_false_iff, beq_eq_false_iff_ne, ne_eq, ← BitVec.toNat_inj, BitVec.toNat_ofNat]
  omega

/-- The six command bytes as numbers (R61). -/
theorem command_values_perm :
    ((List.range 256).filter fun n => isCommandByte (BitVec.ofNat 8 n)).Perm [0x50, 0x42, 0x52, 0x53, 0x73, 0x72] := by
  refine (List.perm_ext_iff_of_nodup (List.nodup_range.filter _) (by decide)).mpr fun n => ?_
  simp only [List.mem_filter, List.mem_range, isCommandByte, Bool.or_eq_true, beq_iff_eq, ← BitVec.toNat_inj,
    BitVec.toNat_ofNat, List.mem_cons, List.not_mem_nil, or_false]
  omega

/-- Of the 256 byte values six are commands (R68). -/
theorem count_not_command : ((List.range 256).filter fun n => !isCommandByte (BitVec.ofNat 8 n)).length = 250 := by
  have hsix := command_values_perm.length_eq
  have hsplit := List.length_eq_length_filter_add (l := List.range 256) fun n => isCommandByte (BitVec.ofNat 8 n)
  simp only [List.length_range, List.length_cons, List.length_nil] at hsix hsplit
  omega

/-- Settles O7: nine closed words, on which the decoder computes. -/
theorem writtenFramesDecode : Obligations.WrittenFramesDecode :=
  ⟨rfl, rfl, rfl, rfl, rfl, rfl, rfl, rfl, rfl⟩

end Sys2Proof

/-! The constants of the response, and the response as a frame (R52, R65 to R68, R121). -/

namespace Sys2Proof.Machine

/-- A non-zero distance below 256 leads to another byte (R67; log 8). -/
theorem ne_add_offset (b : Byte) (k : Fin 255) : b ≠ b + BitVec.ofNat 8 (k.val + 1) := by
  intro h
  have hzero : BitVec.ofNat 8 (k.val + 1) = 0#8 := by simpa using h
  have hmod : (k.val + 1) % 256 = 0 := by simpa using congrArg BitVec.toNat hzero
  omega

/-- Settles O8: NAK and STATUS_FALSE lie a non-zero distance above ACK and STATUS_TRUE. -/
theorem markersAndAcksDiffer : Obligations.MarkersAndAcksDiffer :=
  ⟨fun _ => rfl, ne_add_offset Config.statusTrue Config.statusOffset, ne_add_offset Config.ack Config.nakOffset⟩

/-- Settles O5: Unknown is what is left between the six command bytes, and it responds with NAK. -/
theorem otherBytesAreUnknown : Obligations.OtherBytesAreUnknown := by
  refine ⟨fun b rest => (not_command_iff_ranges b).symm.trans (decode_unknown_iff b rest).symm,
    count_not_command, fun b s => ?_⟩
  exact ⟨_, exec_eq_respond (.unknown b) s, by rw [respond_eq]; rfl⟩

/-- A response is a body and the closing byte, of the lengths of R65. -/
theorem beforeResponse_framed (i : Instr) (s : State) :
    ∃ body, (beforeResponse i s).1 = body ++ [closingByte i] ∧ body.length + 1 = responseLength i := by
  cases i with
  | ping =>
    exact ⟨[Config.pingPayload 0, Config.pingPayload 1, Config.pingPayload 2, Config.pingPayload 3], rfl, rfl⟩
  | breakpoint | reset | send | unknown => exact ⟨[], rfl, rfl⟩
  | sendReceive | receive => exact ⟨[_, _, _], rfl, rfl⟩

/-- Settles O34: what runs before the response leaves the output stream as it was, so none of its actions writes. -/
theorem responsesAreFramed : Obligations.ResponsesAreFramed := by
  intro i s t h
  rw [exec_eq_respond, respond_eq] at h
  cases h
  obtain ⟨body, hresponse, hlength⟩ := beforeResponse_framed i s
  obtain ⟨actions, hrun⟩ := beforeResponse_runsTo i s
  have houtput := beforeResponse_output i s
  have hquiet : writtenBytes actions = [] := by simpa [houtput] using hrun.output
  refine ⟨body, ?output, hlength, actions, ?trace, hquiet⟩
  case output => simp only [houtput, hresponse, List.append_assoc]
  case trace => simp only [hrun.trace, hresponse]

end Sys2Proof.Machine

/-! The pin primitives, role by role: a role's value after an update, the level on its line, and what a read answers
(R25, R81 to R84). -/

namespace Sys2Proof

/-- A role's value after one role is written: the new value at that role, the old one at every other. -/
theorem PerRole.get_set {α : Type} (p : PerRole α) (v : α) (r q : Role) :
    (p.set r v).get q = if q = r then v else p.get q := by
  by_cases h : q = r
  · subst h
    rw [if_pos rfl, PerRole.get_set_self]
  · rw [if_neg h, PerRole.get_set_of_ne p v h]

/-- Writing the value a role already holds changes nothing. -/
theorem PerRole.set_get_self {α : Type} (p : PerRole α) (r : Role) : p.set r (p.get r) = p := by cases r <;> rfl

end Sys2Proof

namespace Sys2Proof.Machine

variable {s : State}

/-- An output line carries the level the core drives (R25). -/
theorem lineLevel_output {r : Role} (h : s.pins.dir.get r = .output) : lineLevel r s = s.pins.lat.get r := by
  simp only [lineLevel, h]

/-- An input line carries what the environment puts on it (R25). -/
theorem lineLevel_input {r : Role} (h : s.pins.dir.get r = .input) : lineLevel r s = envLevel r s := by
  simp only [lineLevel, h]

/-- A read answers the level on the line, whichever way the line is directed (R83). -/
theorem pinRead_level (r : Role) (s : State) : (pinRead r s).1 = lineLevel r s := by
  cases h : s.pins.dir.get r <;> simp only [pinRead, lineLevel, h]

/-- The environment's level rests on the target, the draws and the output levels, and configuring a pin keeps them. -/
theorem envLevel_pinConfigure (q r : Role) (d : Dir) (s : State) : envLevel q (pinConfigure r d s) = envLevel q s := by
  cases q <;> rfl

/-- A configured role has the new direction. -/
theorem pinConfigure_dir_self (r : Role) (d : Dir) (s : State) : (pinConfigure r d s).pins.dir.get r = d := by simp

/-- Made an output, the line carries the level held for it (R25, R81). -/
theorem lineLevel_pinConfigure_output (r : Role) (s : State) :
    lineLevel r (pinConfigure r .output s) = s.pins.lat.get r := by
  rw [lineLevel_output (pinConfigure_dir_self r .output s), pinConfigure_pins, Pins.configure_lat]

/-- Made an input, the line carries the environment's level (R25, R81). -/
theorem lineLevel_pinConfigure_input (r : Role) (s : State) :
    lineLevel r (pinConfigure r .input s) = envLevel r s := by
  rw [lineLevel_input (pinConfigure_dir_self r .input s), envLevel_pinConfigure]

/-- A written role has the new level. -/
theorem pinWrite_lat_self (r : Role) (l : Level) (s : State) : (pinWrite r l s).pins.lat.get r = l := by simp

/-- Writing the level a role already has changes no pin (R84). -/
theorem pinWrite_pins_of_lat {r : Role} {l : Level} (h : s.pins.lat.get r = l) : (pinWrite r l s).pins = s.pins := by
  rw [pinWrite_pins, Pins.write, ← h, PerRole.set_get_self]

/-- Settles O10: the record update by definition, the line by its new direction. -/
theorem pinConfigureSetsDirection : Obligations.PinConfigureSetsDirection := fun r d s =>
  ⟨PerRole.get_set s.pins.dir d r, rfl, lineLevel_pinConfigure_output r s, lineLevel_pinConfigure_input r s⟩

/-- Settles O11: a line that is an output, before the write or by a later configure, carries the written level. -/
theorem pinWriteSetsLevel : Obligations.PinWriteSetsLevel := by
  refine fun r l s => ⟨PerRole.get_set s.pins.lat l r, rfl, fun hout => ?written, ?configured⟩
  case written =>
    have hdir : (pinWrite r l s).pins.dir.get r = .output := hout
    rw [lineLevel_output hdir, pinWrite_lat_self]
  case configured => rw [lineLevel_pinConfigure_output, pinWrite_lat_self]

/-- Settles O12: a read answers the line's level, and its frame is `pinRead_frame`. -/
theorem pinReadSamplesLine : Obligations.PinReadSamplesLine := fun r s =>
  ⟨pinRead_level r s, fun hout => (pinRead_level r s).trans (lineLevel_output hout),
    fun hin => (pinRead_level r s).trans (lineLevel_input hin), pinRead_frame r s⟩

/-- Settles O13: configuring keeps the output levels, so after it the role still has LOW, on its line and for the
write. -/
theorem assertDrivesLowAtOnce : Obligations.AssertDrivesLowAtOnce := by
  refine fun r s => ⟨rfl, rfl, fun hlow => ⟨?line, ?pins, ?trace⟩⟩
  case line => rw [lineLevel_pinConfigure_output, hlow]
  case pins =>
    have hkept : (pinConfigure r .output s).pins.lat.get r = .low := hlow
    exact pinWrite_pins_of_lat hkept
  case trace => simp [assertLine]

end Sys2Proof.Machine

/-! The bit transport: one bit transfer, its two variants, and its clock timing (R90 to R97, R181). -/

namespace Sys2Proof.Machine

/-- Settles O15: a bit transfer answers the sample that its trace ends in, from every pin state. -/
theorem exchangeBitIsSevenActions : Obligations.ExchangeBitIsSevenActions := by
  intro b s
  obtain ⟨l, _, _, he⟩ := exchangeBit_frame b s
  rw [he]
  exact ⟨l, rfl, rfl⟩

/-- Settles O16: the closed form of a bit transfer. -/
theorem exchangeBitResult : Obligations.ExchangeBitResult := by
  intro b s hin
  rw [exchangeBit_eq b hin]
  exact ⟨rfl, rfl⟩

/-- A bit transfer leaves DOUT at the bit it sent (R90). -/
theorem exchangeBit_lat_dout (b : Bit) (s : State) : (exchangeBit b s).2.pins.lat.dout = .ofBit b := by
  obtain ⟨_, _, _, he⟩ := exchangeBit_frame b s
  rw [he]

/-- Settles O17: both variants are the transfer by definition, and the bit 0 is LOW on DOUT. -/
theorem bitVariantsShareTheTransfer : Obligations.BitVariantsShareTheTransfer := fun _ s =>
  ⟨rfl, exchangeBit_lat_dout false s, rfl⟩

/-- Admissible time stamps are a chain: each action starts no earlier than the one before it allows (R14, R150). -/
theorem admissible_iff_isChain {dur : Interval → Nat} {stamps : List (Action × Nat)} :
    Admissible dur stamps ↔ stamps.IsChain fun p q => p.2 + holdAfter dur p.1 ≤ q.2 := by
  induction stamps with
  | nil => simp [Admissible]
  | cons p rest ih =>
    cases rest with
    | nil => simp [Admissible]
    | cons q rest => rw [List.isChain_cons_cons, ← ih]; rfl

/-- The time from action i to action i + n + 1 is at least the waits from the one up to the other (R14, R150). -/
theorem Admissible.elapsed {dur : Interval → Nat} {stamps : List (Action × Nat)} (h : Admissible dur stamps)
    {i n t u : Nat} (ht : (stamps.map Prod.snd)[i]? = some t) (hu : (stamps.map Prod.snd)[i + (n + 1)]? = some u) :
    t + minDuration dur (((stamps.map Prod.fst).drop i).take (n + 1)) ≤ u := by
  rw [List.getElem?_map, Option.map_eq_some_iff] at ht hu
  obtain ⟨p, hp, rfl⟩ := ht
  obtain ⟨q, hq, rfl⟩ := hu
  obtain ⟨rest, hdrop⟩ : ∃ rest, stamps.drop i = p :: rest := by
    rw [List.drop_eq_getElem?_toList_append, hp]
    exact ⟨_, rfl⟩
  have hrest : rest[n]? = some q := by
    rw [← List.getElem?_drop, hdrop] at hq
    exact hq
  have hwindow : (stamps.drop i).take (n + 2) = p :: rest.take n ++ [q] := by
    rw [hdrop, List.take_succ_cons, List.take_add_one, hrest]
    rfl
  have hadm : Admissible dur (p :: rest.take n ++ [q]) :=
    hwindow ▸ admissible_iff_isChain.mpr (((admissible_iff_isChain.mp h).drop i).take (n + 2))
  have hactions : ((stamps.map Prod.fst).drop i).take (n + 1) = p.1 :: (rest.take n).map Prod.fst := by
    rw [← List.map_drop, hdrop, List.map_cons, List.take_succ_cons, List.map_take]
  rw [hactions]
  exact timingsObeyWaits dur (rest.take n) p.1 q.1 p.2 q.2 hadm

/-- No samples, no transfers. -/
@[simp] theorem transfersActions_nil_samples (bits : List Bit) : transfersActions bits [] = [] := by cases bits <;> rfl

/-- The actions from transfer j on are those of the bits and samples from the j-th on: a transfer has seven actions
(R97, R101). -/
theorem drop_transfersActions (bits : List Bit) (samples : List Level) (j : Nat) :
    (transfersActions bits samples).drop (7 * j) = transfersActions (bits.drop j) (samples.drop j) := by
  induction j generalizing bits samples with
  | zero => rfl
  | succ j ih =>
    cases bits with
    | nil => simp [transfersActions]
    | cons b bits =>
      cases samples with
      | nil => simp
      | cons l samples => exact ih bits samples

/-- Two transfers in a row are their fourteen actions, with nothing between them (R101). -/
theorem drop_transfersActions_pair {bits : List Bit} {samples : List Level} {j : Nat} (hb : j + 1 < bits.length)
    (hs : j + 1 < samples.length) :
    ∃ rest, (transfersActions bits samples).drop (7 * j) =
      transferActions bits[j] samples[j] ++ (transferActions bits[j + 1] samples[j + 1] ++ rest) := by
  rw [drop_transfersActions, List.drop_eq_getElem_cons (by omega : j < bits.length), List.drop_eq_getElem_cons hb,
    List.drop_eq_getElem_cons (by omega : j < samples.length), List.drop_eq_getElem_cons hs]
  exact ⟨_, rfl⟩

/-- Settles O56: a settle wait follows each of the three pin writes. -/
theorem bitTransferTiming : Obligations.BitTransferTiming := by
  intro dur out l stamps hadm hactions t1 t2 t3 t4 h1 h2 h3 h4
  have hrise : t1 + dur .settle ≤ t2 := by
    simpa [hactions, transferActions, minDuration, holdAfter] using hadm.elapsed (n := 1) h1 h2
  have hfall : t2 + dur .settle ≤ t3 := by
    simpa [hactions, transferActions, minDuration, holdAfter] using hadm.elapsed (n := 1) h2 h3
  have hsample : t3 + dur .settle ≤ t4 := by
    simpa [hactions, transferActions, minDuration, holdAfter] using hadm.elapsed (n := 1) h3 h4
  exact ⟨hrise, hfall, hsample⟩

/-- Settles O57: the waits between the clock edges and the drives of transfers j and j + 1, counted in their fourteen
actions. -/
theorem packetClockTiming : Obligations.PacketClockTiming := by
  intro dur bits samples stamps j hadm hactions hb hs rise fall drive nextRise hrise hfall hdrive hnext
  obtain ⟨rest, hpair⟩ := drop_transfersActions_pair hb hs
  have hwindow (k n : Nat) : ((stamps.map Prod.fst).drop (7 * j + k)).take n =
      ((transferActions bits[j] samples[j] ++ (transferActions bits[j + 1] samples[j + 1] ++ rest)).drop k).take n := by
    rw [hactions, ← List.drop_drop, hpair]
  have hhigh : rise + dur .settle ≤ fall := by
    simpa [hwindow, transferActions, minDuration, holdAfter] using hadm.elapsed (n := 1) hrise hfall
  have hhold : fall + dur .settle ≤ drive := by
    simpa [hwindow, transferActions, minDuration, holdAfter] using hadm.elapsed (n := 2) hfall hdrive
  have hlow : fall + 2 * dur .settle ≤ nextRise := by
    simpa [hwindow, transferActions, minDuration, holdAfter, two_mul] using hadm.elapsed (n := 4) hfall hnext
  omega

end Sys2Proof.Machine


/-! The packet codec: the bits and samples of a packet by position, the actions of its transfers, and what each target
makes of them (R69, R100 to R106). -/

namespace Sys2Proof.Machine

variable {s : State}

/-! Bits of a word -/

/-- Insertion, read with the model's own extraction (R106). -/
theorem bitOf_insertBit (v : Word) {i : Nat} (hi : i < 16) (b : Bit) (j : Nat) :
    bitOf (insertBit v i b) j = if j = i then b else bitOf v j := insertBit_bit v i j b hi

/-- Extraction is a shift and a mask (R106). -/
theorem bitOf_eq_shift_and_one (v : Word) (i : Nat) : bitOf v i = ((v >>> i) &&& 1#16 == 1#16) := by
  have hmask : (v >>> i) &&& 1#16 = BitVec.setWidth 16 (BitVec.ofBool (bitOf v i)) := by
    rw [BitVec.and_one_eq_setWidth_ofBool_getLsbD, BitVec.getLsbD_ushiftRight, Nat.add_zero, bitOf]
  rw [hmask]
  cases bitOf v i <;> rfl

/-- Settles O18: the two equations of R106. -/
theorem bitInsertionIsExact : Obligations.BitInsertionIsExact :=
  ⟨fun v _ j b hi => bitOf_insertBit v hi b j, bitOf_eq_shift_and_one⟩

/-- The data loop never touches a bit from position n on (R100). -/
theorem bitOf_insertSamples_of_le {n i : Nat} (hn : n ≤ 16) (hi : n ≤ i) (got : Word) (samples : List Level) :
    bitOf (insertSamples n got samples) i = bitOf got i := by
  induction n generalizing got samples with
  | zero => rfl
  | succ k ih =>
    cases samples with
    | nil => rfl
    | cons l ls => rw [insertSamples, ih (by omega) (by omega), bitOf_insertBit got (by omega), if_neg (by omega)]

/-- Of n samples inserted from bit n − 1 down, the one at n − 1 − i is bit i (R44, R100). -/
theorem bitOf_insertSamples_of_lt {n i : Nat} (hn : n ≤ 16) (hi : i < n) (got : Word) {samples : List Level} {l : Level}
    (hl : samples[n - 1 - i]? = some l) : bitOf (insertSamples n got samples) i = l.toBit := by
  induction n generalizing got samples with
  | zero => omega
  | succ k ih =>
    cases samples with
    | nil => simp at hl
    | cons first rest =>
      rw [insertSamples]
      by_cases hik : i = k
      · subst hik
        obtain rfl : first = l := by simpa using hl
        rw [bitOf_insertSamples_of_le (by omega) le_rfl, bitOf_insertBit got (by omega), if_pos rfl]
      · rw [show k + 1 - 1 - i = (k - 1 - i) + 1 by omega, List.getElem?_cons_succ] at hl
        exact ih (by omega) (by omega) _ hl

/-- The data bits go out from the most significant down (R69). -/
theorem wordBits_eq_map (d : Word) (n : Nat) : wordBits d n = (List.range n).map fun j => bitOf d (n - 1 - j) := by
  induction n with
  | zero => rfl
  | succ k ih =>
    rw [wordBits, ih, List.range_succ_eq_map, List.map_cons, List.map_map]
    refine congrArg₂ List.cons rfl (List.map_congr_left fun j _ => ?_)
    rw [Function.comp_apply, show k + 1 - 1 - (j + 1) = k - 1 - j by omega]

@[simp] theorem wordBits_length (d : Word) (n : Nat) : (wordBits d n).length = n := by simp [wordBits_eq_map]

@[simp] theorem outboundBits_length (d : Word) : (outboundBits d).length = 17 :=
  congrArg (· + 1) (wordBits_length d 16)

/-- The DOUT values of a packet, written out by position (R101). -/
theorem outboundBits_eq_map (d : Word) : outboundBits d = false :: (List.range 16).map fun j => bitOf d (15 - j) :=
  congrArg (false :: ·) (wordBits_eq_map d 16)

/-- The bit at position k of a packet is the one that transfer k sends (R69). -/
theorem getElem?_outboundBits (d : Word) {k : Nat} (hk : k < 17) : (outboundBits d)[k]? = some (outboundBit d k) := by
  rw [outboundBits_eq_map]
  cases k with
  | zero => rfl
  | succ j =>
    rw [List.getElem?_cons_succ, List.getElem?_map, List.getElem?_range (by omega), outboundBit, if_neg (by omega),
      show 16 - (j + 1) = 15 - j by omega]
    rfl

/-! The actions of transfers -/

/-- Actions of a kind that every bit transfer has c times stand c times as often as there are transfers (R97, R101). -/
theorem countP_transfersActions {p : Action → Bool} {c : Nat} (hc : ∀ b l, (transferActions b l).countP p = c)
    {bits : List Bit} {samples : List Level} (hlen : samples.length = bits.length) :
    (transfersActions bits samples).countP p = c * bits.length := by
  induction bits generalizing samples with
  | nil => rfl
  | cons b bs ih =>
    obtain ⟨l, ls, rfl⟩ := List.exists_cons_of_length_eq_add_one hlen
    rw [transfersActions, List.countP_append, hc, ih (by simpa using hlen), List.length_cons]
    ring

theorem doutLevels_append (a b : List Action) : doutLevels (a ++ b) = doutLevels a ++ doutLevels b := by
  induction a with
  | nil => rfl
  | cons x xs ih =>
    cases x with
    | pinWrite r l => cases r <;> simp [doutLevels, ih]
    | pinConfigure | pinRead | wait | hostRead | hostWrite => exact ih

theorem mem_doutLevels {actions : List Action} {l : Level} (h : .pinWrite .dout l ∈ actions) : l ∈ doutLevels actions := by
  obtain ⟨before, after, rfl⟩ := List.append_of_mem h
  simp [doutLevels_append, doutLevels]

/-- Each transfer drives DOUT once, to its bit (R69, R90). -/
theorem doutLevels_transfersActions {bits : List Bit} {samples : List Level} (hlen : samples.length = bits.length) :
    doutLevels (transfersActions bits samples) = bits.map .ofBit := by
  induction bits generalizing samples with
  | nil => rfl
  | cons b bs ih =>
    obtain ⟨l, ls, rfl⟩ := List.exists_cons_of_length_eq_add_one hlen
    rw [transfersActions, doutLevels_append, ih (by simpa using hlen)]
    rfl

/-- The data loop adds the transfers of the data bits and nothing else, from every pin state (R100, R101). -/
theorem exchangeData_trace (d : Word) (n : Nat) (got : Word) (s : State) :
    ∃ samples, samples.length = n ∧
      (exchangeData d n got s).2.trace = s.trace ++ transfersActions (wordBits d n) samples := by
  induction n generalizing got s with
  | zero => exact ⟨[], rfl, by simp [exchangeData]⟩
  | succ i ih =>
    obtain ⟨l, _, _, hbit⟩ := exchangeBit_frame (bitOf d i) s
    rw [exchangeData, hbit]
    obtain ⟨ls, hlen, htrace⟩ := ih _ _
    exact ⟨l :: ls, congrArg (· + 1) hlen, by rw [htrace, List.append_assoc]; rfl⟩

/-- A packet adds its 17 transfers and nothing else, from every pin state (R101). -/
theorem exchangePacket_trace (d : Word) (s : State) :
    ∃ samples, samples.length = 17 ∧
      (exchangePacket d s).2.trace = s.trace ++ transfersActions (outboundBits d) samples := by
  obtain ⟨l, _, _, hbit⟩ := exchangeBit_frame false s
  rw [exchangePacket, hbit]
  obtain ⟨ls, hlen, htrace⟩ := exchangeData_trace d Config.dataBits 0 _
  exact ⟨l :: ls, congrArg (· + 1) hlen, by rw [htrace, List.append_assoc]; rfl⟩

/-- Settles O20: the transfers of the packet, and the seven actions of a transfer counted 17 times. -/
theorem packetTraceHas119Actions : Obligations.PacketTraceHas119Actions := by
  intro d s
  obtain ⟨samples, hlen, htrace⟩ := exchangePacket_trace d s
  have hbits : samples.length = (outboundBits d).length := by rw [hlen, outboundBits_length]
  have hcount {p : Action → Bool} {c : Nat} (hc : ∀ b l, (transferActions b l).countP p = c) :
      (transfersActions (outboundBits d) samples).countP p = c * 17 := by
    rw [countP_transfersActions hc hbits, outboundBits_length]
  refine ⟨_, htrace, ⟨samples, hlen, rfl⟩, outboundBits_eq_map d, ?length, hcount (c := 3) fun _ _ => rfl,
    hcount (c := 3) fun _ _ => rfl, hcount (c := 1) fun _ _ => rfl, ?rises, ?dout⟩
  case length => rw [← List.countP_true]; exact hcount (c := 7) fun _ _ => rfl
  case rises => exact hcount (c := 1) fun b _ => by cases b <;> rfl
  case dout => rw [doutLevels_transfersActions hbits, outboundBits_eq_map, List.map_cons, List.map_map]; rfl

/-- Settles O21: both variants are the exchange by definition, and every bit of the zero word is 0. -/
theorem packetVariantsShareTheExchange : Obligations.PacketVariantsShareTheExchange := by
  intro d s
  obtain ⟨samples, hlen, htrace⟩ := exchangePacket_trace 0 s
  refine ⟨rfl, rfl, _, htrace, fun l hl => ?_⟩
  have hlevel := mem_doutLevels hl
  rw [doutLevels_transfersActions (by rw [hlen, outboundBits_length])] at hlevel
  have hlow : ∀ l ∈ (outboundBits 0).map Level.ofBit, l = .low := by decide
  exact hlow l hlevel

/-! The samples of a target -/

/-- While DIN is an input, the packet is the target's samples: the first is the status and the rest are the data
(R44, R100). -/
theorem exchangePacket_of_samples {d : Word} {l : Level} {ls : List Level} (hin : s.pins.dir.din = .input)
    (hs : s.target.samples s.draws (outboundBits d) = l :: ls) :
    (exchangePacket d s).1 = { status := l.toBit, data := insertSamples 16 0 ls } := by
  obtain ⟨rfl, rfl⟩ := List.cons.inj hs
  rw [exchangePacket_eq d hin]
  rfl

/-- A script gives its own levels, one to each bit, whatever the bits are (R85; log 7). -/
theorem samples_script {bits : List Bit} {levels : List Level} (hlen : levels.length = bits.length) (more : List Level)
    (n : Nat) : (Target.script (levels ++ more)).samples n bits = levels := by
  induction bits generalizing levels n with
  | nil => exact (List.eq_nil_of_length_eq_zero hlen).symm
  | cons b bs ih =>
    obtain ⟨l, ls, rfl⟩ := List.exists_cons_of_length_eq_add_one hlen
    exact congrArg (l :: ·) (ih (by simpa using hlen) (n + 1))

/-- Each sample takes one level of a script (log 7). -/
theorem after_script (n : Nat) (levels : List Level) : (Target.script levels).after n = .script (levels.drop n) := by
  induction n generalizing levels with
  | zero => rfl
  | succ n ih => rw [Target.after, Target.sampled, ih, List.drop_tail]

/-- Loopback gives back each bit (R85, R94). -/
theorem samples_loopback (n : Nat) (bits : List Bit) : Target.loopback.samples n bits = bits.map .ofBit := by
  induction bits generalizing n with
  | nil => rfl
  | cons b bs ih => exact congrArg (Level.ofBit b :: ·) (ih (n + 1))

/-- The packet under a script of 17 levels. -/
theorem exchangePacket_of_script (d : Word) {l : Level} {ls more : List Level} (hin : s.pins.dir.din = .input)
    (hlen : ls.length = 16) (ht : s.target = .script (l :: ls ++ more)) :
    (exchangePacket d s).1 = { status := l.toBit, data := insertSamples 16 0 ls } :=
  exchangePacket_of_samples hin (by rw [ht, samples_script (by simp [hlen])])

/-- Settles O19: the loop inserts sample 16 − i at bit i. -/
theorem packetIsItsSamples : Obligations.PacketIsItsSamples := by
  intro d s samples more hlen ht hin
  obtain ⟨first, rest, rfl⟩ := List.exists_cons_of_length_eq_add_one hlen
  rw [exchangePacket_of_script d hin (by simpa using hlen) ht]
  refine ⟨fun l hl => ?status, fun i l hi hl => ?data, ?target⟩
  case status =>
    obtain rfl : first = l := by simpa using hl
    rfl
  case data =>
    rw [show 16 - i = (15 - i) + 1 by omega, List.getElem?_cons_succ] at hl
    exact bitOf_insertSamples_of_lt le_rfl hi 0 hl
  case target =>
    have htarget : (exchangePacket d s).2.target = s.target.after (outboundBits d).length := by
      rw [exchangePacket_eq d hin]; rfl
    rw [htarget, ht, outboundBits_length, after_script, ← hlen, List.drop_left]

/-- Settles O22: the bits sent by position, and the two scripts as the loop inserts them. -/
theorem mostSignificantBitFirst : Obligations.MostSignificantBitFirst := by
  refine ⟨by decide, fun d k hk => getElem?_outboundBits d hk, fun d s hin => ⟨fun ht => ?first, fun ht => ?last⟩⟩
  case first =>
    have hscript : s.target = .script (.low :: (.high :: List.replicate 15 .low) ++ []) := ht
    rw [exchangePacket_of_script d hin rfl hscript]
    rfl
  case last =>
    have hscript : s.target = .script (.low :: (List.replicate 15 .low ++ [.high]) ++ []) := ht
    rw [exchangePacket_of_script d hin rfl hscript]
    rfl

/-- The data loop inserts the levels of a word's own bits back into that word (R105). -/
theorem insertSamples_wordBits (d : Word) : insertSamples 16 0 ((wordBits d 16).map .ofBit) = d := by
  refine BitVec.eq_of_getLsbD_eq fun i hi => ?_
  have hsample : ((wordBits d 16).map Level.ofBit)[16 - 1 - i]? = some (.ofBit (bitOf d i)) := by
    rw [wordBits_eq_map, List.getElem?_map, List.getElem?_map, List.getElem?_range (by omega)]
    simp only [Option.map_some, show 16 - 1 - (16 - 1 - i) = i by omega]
  have hbit := bitOf_insertSamples_of_lt le_rfl hi 0 hsample
  rwa [toBit_ofBit] at hbit

/-- Settles O23: the samples under Loopback are the bits sent. -/
theorem loopbackReturnsWord : Obligations.LoopbackReturnsWord := by
  intro b d s ht hin
  constructor
  · rw [exchangeBit_eq b hin, ht]
    exact toBit_ofBit b
  · have hsamples : s.target.samples s.draws (outboundBits d) = .low :: (wordBits d 16).map .ofBit := by
      rw [ht, samples_loopback]; rfl
    rw [exchangePacket_of_samples hin hsamples, insertSamples_wordBits]
    rfl

end Sys2Proof.Machine

/-! Debug-mode entry: the roles its actions name, the window in which it holds each line, and its timing
(R110 to R115). -/

namespace Sys2Proof.Machine

/-- The trace of R111 without Reset. -/
theorem debugActions_false : debugActions false =
    [.pinConfigure .bkpt .output, .pinWrite .bkpt .low, .wait .bkptAssert,
     .pinConfigure .bkpt .input, .wait .bkptRelease] := rfl

/-- The trace of R111 with Reset. -/
theorem debugActions_true : debugActions true =
    [.pinConfigure .bkpt .output, .pinWrite .bkpt .low, .wait .bkptAssert,
     .pinConfigure .rst .output, .pinWrite .rst .low, .wait .rstAssert,
     .pinConfigure .rst .input, .wait .rstRelease,
     .pinConfigure .bkpt .input, .wait .bkptRelease] := rfl

/-- Debug-mode entry names BKPT, with Reset also RST, and no other role (R113, R115). -/
theorem role_of_mem_debugActions {withReset : Bool} {a : Action} (h : a ∈ debugActions withReset) :
    a.role = none ∨ a.role = some .bkpt ∨ (withReset = true ∧ a.role = some .rst) := by
  revert a
  cases withReset <;> decide

/-- Debug-mode entry extends the trace by the actions of R111. -/
theorem enterDebugMode_trace (withReset : Bool) (s : State) :
    (enterDebugMode withReset s).trace = s.trace ++ debugActions withReset := by
  rw [enterDebugMode_eq]

/-- Actions that do not configure a role keep its direction (R81, R82). -/
theorem replay_dir_of_not_configured {r : Role} {actions : List Action} (h : ∀ d, .pinConfigure r d ∉ actions)
    (p : Pins) : (replay actions p).dir.get r = p.dir.get r := by
  induction actions generalizing p with
  | nil => rfl
  | cons a actions ih =>
    have hrest := ih (fun d hd => h d (List.mem_cons_of_mem a hd)) (a.onPins p)
    refine Eq.trans hrest ?_
    cases a with
    | pinConfigure q d =>
      have hq : r ≠ q := by
        rintro rfl
        exact h d List.mem_cons_self
      exact PerRole.get_set_of_ne p.dir d hq
    | pinWrite | pinRead | wait | hostRead | hostWrite => rfl

/-- After a role is configured and then left alone, it has the configured direction (R81). -/
theorem replay_dir_of_last_configured {r : Role} {d : Dir} {before after : List Action}
    (h : ∀ d, .pinConfigure r d ∉ after) (p : Pins) :
    (replay (before ++ .pinConfigure r d :: after) p).dir.get r = d := by
  rw [replay_append]
  exact (replay_dir_of_not_configured h _).trans (PerRole.get_set_self _ _ _)

/-- A released line that is asserted once and released once is an output exactly from the one configure up to the
other. -/
theorem dir_output_iff_between_configures {r : Role} {before held after : List Action}
    (hbefore : ∀ d, .pinConfigure r d ∉ before) (hheld : ∀ d, .pinConfigure r d ∉ held)
    (hafter : ∀ d, .pinConfigure r d ∉ after) {p : Pins} (hp : p.dir.get r = .input) (n : Nat) :
    (replay ((before ++ .pinConfigure r .output :: (held ++ .pinConfigure r .input :: after)).take n) p).dir.get r =
        .output ↔
      before.length + 1 ≤ n ∧ n ≤ before.length + 1 + held.length := by
  have hkept {actions : List Action} (h : ∀ d, .pinConfigure r d ∉ actions) (k : Nat) (d : Dir) :
      .pinConfigure r d ∉ actions.take k := fun hd => h d (List.mem_of_mem_take hd)
  rcases Nat.lt_or_ge before.length n with hasserted | hearly
  · obtain ⟨k, rfl⟩ := Nat.exists_eq_add_of_lt hasserted
    rw [Nat.add_assoc, List.take_length_add_append, List.take_succ_cons]
    rcases Nat.lt_or_ge held.length k with hreleased | hinside
    · obtain ⟨m, rfl⟩ := Nat.exists_eq_add_of_lt hreleased
      rw [Nat.add_assoc held.length, List.take_length_add_append, List.take_succ_cons, ← List.cons_append,
        ← List.append_assoc, replay_dir_of_last_configured (hkept hafter m)]
      simp only [reduceCtorEq, false_iff]
      omega
    · rw [List.take_append_of_le_length hinside, replay_dir_of_last_configured (hkept hheld k)]
      simp only [true_iff]
      omega
  · rw [List.take_append_of_le_length hearly, replay_dir_of_not_configured (hkept hbefore n), hp]
    simp only [reduceCtorEq, false_iff]
    omega

/-- Settles O24: each line is configured twice, RST by actions 4 and 7 and BKPT by actions 1 and 9. -/
theorem resetPulsesInsideBreakpoint : Obligations.ResetPulsesInsideBreakpoint := by
  refine ⟨fun s => ⟨enterDebugMode_trace false s, enterDebugMode_trace true s, enterDebugMode_trace false s,
    enterDebugMode_trace true s⟩, fun a ha hrst => ?noReset, fun p hbkpt hrst n => ⟨?rst, ?bkpt⟩⟩
  case noReset => simpa [hrst] using role_of_mem_debugActions ha
  case rst =>
    exact dir_output_iff_between_configures (r := .rst)
      (before := [.pinConfigure .bkpt .output, .pinWrite .bkpt .low, .wait .bkptAssert])
      (held := [.pinWrite .rst .low, .wait .rstAssert])
      (after := [.wait .rstRelease, .pinConfigure .bkpt .input, .wait .bkptRelease])
      (by simp) (by simp) (by simp) hrst n
  case bkpt =>
    exact dir_output_iff_between_configures (r := .bkpt) (before := [])
      (held := [.pinWrite .bkpt .low, .wait .bkptAssert, .pinConfigure .rst .output, .pinWrite .rst .low,
        .wait .rstAssert, .pinConfigure .rst .input, .wait .rstRelease])
      (after := [.wait .bkptRelease])
      (by simp) (by simp) (by simp) hbkpt n

/-- Settles O25: what debug-mode entry does is a list of actions fixed by withReset, on BKPT and RST alone. -/
theorem debugEntryHasNoFeedback : Obligations.DebugEntryHasNoFeedback := by
  refine fun withReset s target draws input => ⟨?same, fun a ha => ?roles⟩
  case same => rw [enterDebugMode_eq, enterDebugMode_eq]
  case roles =>
    rcases role_of_mem_debugActions ha with hrole | hrole | ⟨-, hrole⟩ <;> simp [hrole]

/-- The holds of debug-mode entry (R111, R180). -/
theorem minDuration_debugActions (dur : Interval → Nat) (withReset : Bool) :
    minDuration dur (debugActions withReset) =
      dur .bkptAssert + (if withReset then dur .rstAssert + dur .rstRelease else 0) + dur .bkptRelease := by
  cases withReset <;> simp [minDuration, debugActions_false, debugActions_true, holdAfter, Nat.add_assoc]

/-- Settles O58: the holds between the actions named, and all of them up to the action after the sequence. -/
theorem debugEntryTiming : Obligations.DebugEntryTiming := by
  refine ⟨?withoutReset, ?withReset, fun tSettle => ⟨?sum100, ?sum200⟩⟩
  case withoutReset =>
    intro dur stamps next hadm hactions a1 a4 last h1 h4 hlast
    have hhold : a1 + dur .bkptAssert ≤ a4 := by
      simpa [hactions, debugActions_false, minDuration, holdAfter] using hadm.elapsed (n := 2) h1 h4
    have hsettle : a4 + dur .bkptRelease ≤ last := by
      simpa [hactions, debugActions_false, minDuration, holdAfter] using hadm.elapsed (n := 1) h4 hlast
    omega
  case withReset =>
    intro dur stamps next hadm hactions a1 a4 a7 a9 last h1 h4 h7 h9 hlast
    have hhold : a1 + dur .bkptAssert ≤ a4 := by
      simpa [hactions, debugActions_true, minDuration, holdAfter] using hadm.elapsed (n := 2) h1 h4
    have hpulse : a4 + dur .rstAssert ≤ a7 := by
      simpa [hactions, debugActions_true, minDuration, holdAfter] using hadm.elapsed (n := 2) h4 h7
    have hrecover : a7 + dur .rstRelease ≤ a9 := by
      simpa [hactions, debugActions_true, minDuration, holdAfter] using hadm.elapsed (n := 1) h7 h9
    have hsettle : a9 + dur .bkptRelease ≤ last := by
      simpa [hactions, debugActions_true, minDuration, holdAfter] using hadm.elapsed (n := 1) h9 hlast
    omega
  case sum100 | sum200 => rw [minDuration_debugActions]; rfl

end Sys2Proof.Machine

/-! The closed form of a command: its actions, its response and what it leaves, from its frame and its DIN samples
(R122 to R130). -/

namespace Sys2Proof.Machine

variable {s : State}

/-! The packet of its samples -/

theorem bitOf_shiftIn_zero (got : Word) (sample : Level) : bitOf (shiftIn got sample) 0 = sample.toBit := by
  cases sample <;> simp [bitOf, shiftIn, Level.toBit]

theorem bitOf_shiftIn_succ (got : Word) (sample : Level) {i : Nat} (hi : i + 1 < 16) :
    bitOf (shiftIn got sample) (i + 1) = bitOf got i := by
  cases sample <;> simp [bitOf, shiftIn, Level.toBit, hi, BitVec.getLsbD_eq_getElem (show i < 16 by omega)]

/-- The sample shifted in last is bit 0, and the one i places before it is bit i (R44, R100). -/
theorem bitOf_foldl_shiftIn {samples : List Level} {i : Nat} {l : Level} (hi : i < 16)
    (hl : samples.reverse[i]? = some l) (got : Word) : bitOf (samples.foldl shiftIn got) i = l.toBit := by
  induction samples using List.reverseRecOn generalizing i with
  | nil => simp at hl
  | append_singleton samples last ih =>
    rw [List.reverse_append, List.reverse_singleton, List.singleton_append] at hl
    rw [List.foldl_append, List.foldl_cons, List.foldl_nil]
    cases i with
    | zero =>
      obtain rfl : last = l := by simpa using hl
      exact bitOf_shiftIn_zero _ last
    | succ j =>
      rw [List.getElem?_cons_succ] at hl
      rw [bitOf_shiftIn_succ _ last hi, ih (by omega) hl]

/-- Shifting 16 samples in gives the word that inserting them from bit 15 down does (R44, R100). -/
theorem foldl_shiftIn_eq_insertSamples {samples : List Level} (hlen : samples.length = 16) :
    samples.foldl shiftIn 0 = insertSamples 16 0 samples := by
  refine BitVec.eq_of_getLsbD_eq fun i hi => ?_
  obtain ⟨l, hl⟩ : ∃ l, samples[16 - 1 - i]? = some l := ⟨_, List.getElem?_eq_getElem (by omega)⟩
  have hreverse : samples.reverse[i]? = some l := by rw [List.getElem?_reverse (by omega), hlen, hl]
  exact (bitOf_foldl_shiftIn hi hreverse 0).trans (bitOf_insertSamples_of_lt le_rfl hi 0 hl).symm

/-- A target gives one sample to each bit (R85). -/
@[simp] theorem samples_length (t : Target) (n : Nat) (bits : List Bit) : (t.samples n bits).length = bits.length := by
  induction bits generalizing t n with
  | nil => rfl
  | cons b bs ih => exact congrArg (· + 1) (ih _ _)

/-- A whole exchange, while DIN is an input: the packet of the target's samples, and the 17 transfers (R100, R101). -/
theorem exchangePacket_closed (d : Word) (hin : s.pins.dir.din = .input) :
    exchangePacket d s =
      (packetOfSamples (s.target.samples s.draws (outboundBits d)), afterTransfers (outboundBits d) s) := by
  rw [exchangePacket_eq d hin, outboundBits, Target.samples, packetOfSamples,
    foldl_shiftIn_eq_insertSamples (by rw [samples_length, wordBits_length]; rfl)]
  rfl

/-- A sequence of transfers leaves DOUT at the last bit, CLK LOW and every other pin as it was (R90). -/
theorem replay_transfersActions {bits : List Bit} {samples : List Level} {b : Bit}
    (hlen : samples.length = bits.length) (hlast : bits.getLast? = some b) (p : Pins) :
    replay (transfersActions bits samples) p =
      { p with lat := { p.lat with clk := .low, dout := .ofBit b } } := by
  induction bits generalizing samples p with
  | nil => simp at hlast
  | cons first rest ih =>
    obtain ⟨l, ls, rfl⟩ := List.exists_cons_of_length_eq_add_one hlen
    rw [transfersActions, replay_append, replay_transferActions]
    cases rest with
    | nil =>
      obtain rfl : first = b := by simpa using hlast
      rfl
    | cons second rest => exact ih (by simpa using hlen) (by simpa using hlast) _

/-- The last bit of a packet is d[0] (R69). -/
theorem getLast?_outboundBits (d : Word) : (outboundBits d).getLast? = some (bitOf d 0) := by
  rw [List.getLast?_eq_getElem?, outboundBits_length]
  exact getElem?_outboundBits d (k := 16) (by omega)

/-- The pins after a packet of d (R101). -/
theorem replay_packet (d : Word) (t : Target) (n : Nat) (p : Pins) :
    replay (transfersActions (outboundBits d) (t.samples n (outboundBits d))) p =
      { p with lat := { p.lat with clk := .low, dout := .ofBit (bitOf d 0) } } :=
  replay_transfersActions (samples_length t n _) (getLast?_outboundBits d) p

/-! The command -/

/-- A response ends the command after its bytes (R52, R121). -/
theorem respond_eq_retire (bytes : List Byte) (s : State) :
    respond bytes s =
      retire { s with output := s.output ++ bytes, trace := s.trace ++ bytes.map .hostWrite } := by
  rw [respond, hostWriteAll_eq]

/-- A command that exchanges no packet runs as its closed form from every state, and any command does while DIN is an
input (R130). -/
theorem exec_eq_afterFrame (i : Instr) (hin : sentWord i = none ∨ s.pins.dir.din = .input) :
    exec i s = .next (afterFrame i s) := by
  rw [exec_eq_respond, respond_eq_retire, afterFrame]
  cases i with
  | ping | unknown => simp [beforeResponse, runActions, runResponse, sampleCount, sentWord, replay, Target.after]
  | breakpoint | reset =>
    simp [beforeResponse, enterDebugMode_eq, runActions, runResponse, sampleCount, sentWord, Target.after]
  | sendReceive | send | receive =>
    obtain hnone | hin := hin
    · cases hnone
    rw [beforeResponse, exchangePacket_closed _ hin]
    simp [afterTransfers, runActions, runResponse, sampleCount, samplesOf, sentBits, sentWord, Config.packetBits]

/-- A frame takes one sample for each bit it sends (R130). -/
theorem samplesOf_length (i : Instr) (s : State) : (samplesOf i s).length = sampleCount i := by
  rw [samplesOf, samples_length, sentBits, sampleCount]
  cases sentWord i with
  | none => rfl
  | some d => exact outboundBits_length d

/-- Settles O36: the closed form, whose actions and response are functions of the frame and its samples. -/
theorem responseIsFunctionOfFrameAndSamples : Obligations.ResponseIsFunctionOfFrameAndSamples := by
  refine ⟨fun i s hin => ⟨exec_eq_afterFrame i (.inr hin), samplesOf_length i s, ?count⟩,
    fun i s t hs ht hsame => ?equal⟩
  case count => cases i <;> simp [sampleCount, sentWord, Config.packetBits]
  case equal =>
    refine ⟨runActions i (samplesOf i s), runResponse i (samplesOf i s), afterFrame i s, afterFrame i t,
      exec_eq_afterFrame i (.inr hs), exec_eq_afterFrame i (.inr ht), rfl, rfl, ?trace, ?output⟩
    case trace => rw [hsame]; rfl
    case output => rw [hsame]; rfl

/-- The closed form of a command that sends the word d, with its pins written out (R69, R101). -/
theorem exec_packet {i : Instr} {d : Word} (hword : sentWord i = some d) (hin : s.pins.dir.din = .input) :
    exec i s = .next (retire
      { s with
        pins := { s.pins with lat := { s.pins.lat with clk := .low, dout := .ofBit (bitOf d 0) } }
        target := s.target.after 17
        draws := s.draws + 17
        output := s.output ++ runResponse i (s.target.samples s.draws (outboundBits d))
        trace := s.trace ++ transfersActions (outboundBits d) (s.target.samples s.draws (outboundBits d)) ++
          (runResponse i (s.target.samples s.draws (outboundBits d))).map .hostWrite }) := by
  have hactions (samples : List Level) : runActions i samples = transfersActions (outboundBits d) samples := by
    cases i <;> cases hword <;> rfl
  have hsamples : samplesOf i s = s.target.samples s.draws (outboundBits d) := by rw [samplesOf, sentBits, hword]; rfl
  have hcount : sampleCount i = 17 := by rw [sampleCount, hword]; rfl
  rw [exec_eq_afterFrame i (.inr hin), afterFrame, hsamples, hactions, hcount, replay_packet]

/-- Settles O29: the packet of d, with the data response. -/
theorem sendReceiveCompletes : Obligations.SendReceiveCompletes := fun _ _ hin => exec_packet rfl hin

/-- Settles O30: the packet of d, with ACK alone. -/
theorem sendCompletes : Obligations.SendCompletes := fun _ _ hin => exec_packet rfl hin

/-- The zero word sends 17 zeros (R103). -/
theorem outboundBits_zero : outboundBits 0 = List.replicate 17 false := rfl

/-- Settles O31: the packet of the zero word, with the data response. -/
theorem receiveCompletes : Obligations.ReceiveCompletes := by
  intro s hin
  rw [exec_packet rfl hin, outboundBits_zero]
  rfl

/-- A command writes its response after what it had written before (R52). -/
theorem exec_output (i : Instr) (s : State) :
    ∃ t, exec i s = .next t ∧ t.output = s.output ++ (beforeResponse i s).1 :=
  ⟨_, exec_eq_respond i s, by rw [respond_eq, beforeResponse_output]⟩

/-- Settles O35: under Loopback the packet is status 0 and the word sent. -/
theorem loopbackResponses : Obligations.LoopbackResponses := by
  intro d s ht hin
  have hpacket (w : Word) : (exchangePacket w s).1 = { status := false, data := w } :=
    (loopbackReturnsWord false w s ht hin).2
  obtain ⟨t, hexec, houtput⟩ := exec_output (.sendReceive d) s
  obtain ⟨u, hexec', houtput'⟩ := exec_output .receive s
  rw [beforeResponse, hpacket] at houtput
  rw [beforeResponse, hpacket] at houtput'
  exact ⟨⟨t, hexec, houtput⟩, u, hexec', houtput'⟩

/-- Settles O26: Ping is its response. -/
theorem pingCompletes : Obligations.PingCompletes := by
  intro s
  rw [exec_eq_respond, respond_eq_retire]
  rfl

/-- Settles O32: Unknown is its response. -/
theorem unknownCompletes : Obligations.UnknownCompletes := by
  intro b s
  rw [exec_eq_respond, respond_eq_retire]
  rfl

/-- Settles O27: the five actions of R111 and what they leave, then ACK. -/
theorem breakpointCompletes : Obligations.BreakpointCompletes := by
  intro s
  rw [exec_eq_respond, respond_eq_retire, beforeResponse, enterDebugMode_eq, replay_debugActions_false,
    debugActions_false, List.append_assoc]
  rfl

/-- Settles O28: the ten actions of R111 and what they leave, then ACK. -/
theorem resetCompletes : Obligations.ResetCompletes := by
  intro s
  rw [exec_eq_respond, respond_eq_retire, beforeResponse, enterDebugMode_eq, replay_debugActions_true,
    debugActions_true, List.append_assoc]
  rfl

end Sys2Proof.Machine

/-! A hold, and the bytes that end it (R120, R129, R138). -/

namespace Sys2Proof

/-- The bytes that complete a frame are the first of those that come after the part of it (R62). -/
theorem completing_bytes {part bytes rest : List Byte} {why : DecodeReject} {i : Instr}
    (hpart : decode part = .error why) (hwhole : decode (part ++ bytes) = .ok (i, rest)) :
    ∃ more, bytes = more ++ rest := by
  obtain ⟨hwf, hbytes⟩ := decode_ok hwhole
  rcases List.append_eq_append_iff.mp hbytes with ⟨more, -, hmore⟩ | ⟨extra, hextra, -⟩
  · exact ⟨more, hmore⟩
  · rw [hextra, decodeOfEncode i extra hwf] at hpart
    cases hpart

end Sys2Proof

namespace Sys2Proof.Machine

variable {s t : State}

theorem readBytes_output (n : Nat) (s : State) : (readBytes n s).output = s.output := by rw [readBytes_eq]

theorem enterHold_input (why : DecodeReject) (s : State) : (enterHold why s).input = s.input := by cases why <;> rfl

theorem retire_enterHold (why : DecodeReject) (s : State) : retire (enterHold why s) = retire s := by cases why <;> rfl

/-- A command does not look at the registers or the sub-state of a hold (R22). -/
theorem exec_enterHold (i : Instr) (why : DecodeReject) (s : State) : exec i (enterHold why s) = exec i s := by
  rw [← exec_retire, retire_enterHold, exec_retire]

/-- A later hold of the same frame overwrites what an earlier one kept (R29). -/
theorem enterHold_enterHold {part bytes : List Byte} {why why' : DecodeReject} (hpart : decode part = .error why)
    (hmore : decode (part ++ bytes) = .error why') (s : State) :
    enterHold why' (enterHold why s) = enterHold why' s := by
  rcases decode_error hpart with ⟨rfl, rfl⟩ | ⟨c, -, rfl, rfl⟩ | ⟨c, h, -, rfl, rfl⟩
  · rfl
  · rcases decode_error hmore with ⟨hb, -⟩ | ⟨c', -, hb, rfl⟩ | ⟨c', h', -, hb, rfl⟩
    · cases hb
    · rfl
    · rfl
  · rcases decode_error hmore with ⟨hb, -⟩ | ⟨c', -, hb, -⟩ | ⟨c', h', -, hb, rfl⟩
    · cases hb
    · cases hb
    · simp [enterHold, withHighByte]

/-- The state in which a waiting machine holds: the bytes there were are read, and the sub-state and the registers say
which (R129). -/
def afterHold (why : DecodeReject) (s : State) : State := enterHold why (readBytes s.input.length s)

theorem step_hold {why : DecodeReject} (hw : s.disp.waitsForHost = true)
    (hd : decode (pendingFrame s ++ s.input) = .error why) : step s = .next (afterHold why s) :=
  step_of_decode_error hw hd

theorem afterHold_input (why : DecodeReject) (s : State) : (afterHold why s).input = [] := by
  rw [afterHold, enterHold_input, readBytes_eq, List.drop_length]

theorem afterHold_waits (why : DecodeReject) (hw : s.disp.waitsForHost = true) :
    (afterHold why s).disp.waitsForHost = true := by
  rw [afterHold, readBytes_eq]
  cases why with
  | noCommandByte => exact hw
  | noPayloadHigh | noPayloadLow => rfl

/-- A hold keeps the bytes of the frame that have been read (R29, R129). -/
theorem pendingFrame_afterHold {why : DecodeReject} (hd : decode (pendingFrame s ++ s.input) = .error why) :
    pendingFrame (afterHold why s) = pendingFrame s ++ s.input := by
  rw [afterHold, readBytes_eq]
  rcases decode_error hd with ⟨hbytes, rfl⟩ | ⟨c, -, hbytes, rfl⟩ | ⟨c, h, -, hbytes, rfl⟩
  · obtain ⟨-, hi⟩ := List.append_eq_nil_iff.mp hbytes
    rw [hi, List.append_nil]
    rfl
  · rw [hbytes]
    rfl
  · rw [hbytes]
    exact congrArg (fun b => [c, b]) (highByte_payloadWord h _)

/-- Reading on after a hold has read the same bytes as reading them at once (R31, R138). -/
theorem readBytes_afterHold (why : DecodeReject) (n : Nat) (bytes : List Byte) (s : State) :
    readBytes n (hostSend bytes (afterHold why s)) =
      enterHold why (readBytes (s.input.length + n) (hostSend bytes s)) := by
  cases why <;> simp [afterHold, readBytes_eq, enterHold, hostSend, List.drop_append, List.take_append]

/-- Bytes sent stand behind the part of the frame that has been read and the bytes that wait (R31, R138). -/
theorem frame_hostSend (bytes : List Byte) (s : State) :
    pendingFrame (hostSend bytes s) ++ (hostSend bytes s).input = pendingFrame s ++ s.input ++ bytes :=
  (List.append_assoc _ _ _).symm

/-- After a hold, bytes sent make the same frame as if they had been there at once (R129). -/
theorem frame_hostSend_afterHold {why : DecodeReject} (hd : decode (pendingFrame s ++ s.input) = .error why)
    (bytes : List Byte) :
    pendingFrame (hostSend bytes (afterHold why s)) ++ (hostSend bytes (afterHold why s)).input =
      pendingFrame s ++ s.input ++ bytes := by
  rw [frame_hostSend, pendingFrame_afterHold hd, afterHold_input, List.append_nil]

/-- Settles O42: the part of the frame that was read stands in the sub-state and the registers, and the late bytes
complete it, or lead to the hold that they would have led to at once. -/
theorem splitFramesRunAlike : Obligations.SplitFramesRunAlike := by
  intro s t why bytes hw hd h
  rw [step_hold hw hd] at h
  cases h
  have hsplit := frame_hostSend_afterHold hd bytes
  have hwaits : (hostSend bytes (afterHold why s)).disp.waitsForHost = true := afterHold_waits why hw
  cases hd' : decode (pendingFrame s ++ s.input ++ bytes) with
  | ok p =>
    obtain ⟨i, rest⟩ := p
    obtain ⟨more, rfl⟩ := completing_bytes hd hd'
    have hcount : s.input.length + ((more ++ rest).length - rest.length) =
        (s.input ++ (more ++ rest)).length - rest.length := by
      simp only [List.length_append]
      omega
    calc step (hostSend (more ++ rest) (afterHold why s))
      _ = exec i (readBytes ((more ++ rest).length - rest.length) (hostSend (more ++ rest) (afterHold why s))) := by
        rw [step_of_decode_ok hwaits (by rw [hsplit, hd']), hostSend_input, afterHold_input, List.nil_append]
      _ = exec i (readBytes ((s.input ++ (more ++ rest)).length - rest.length) (hostSend (more ++ rest) s)) := by
        rw [readBytes_afterHold, exec_enterHold, hcount]
      _ = step (hostSend (more ++ rest) s) :=
        (step_of_decode_ok (s := hostSend _ s) hw (by rw [frame_hostSend, hd'])).symm
  | error why' =>
    calc step (hostSend bytes (afterHold why s))
      _ = .next (enterHold why' (readBytes bytes.length (hostSend bytes (afterHold why s)))) := by
        rw [step_of_decode_error hwaits (by rw [hsplit, hd']), hostSend_input, afterHold_input, List.nil_append]
      _ = .next (enterHold why' (readBytes (s.input.length + bytes.length) (hostSend bytes s))) := by
        rw [readBytes_afterHold, enterHold_enterHold hd hd']
      _ = step (hostSend bytes s) := by
        rw [step_of_decode_error (s := hostSend bytes s) hw (by rw [frame_hostSend, hd']), hostSend_input,
          List.length_append]

/-- In a good waiting state the bytes read so far are an incomplete frame, and the hold it leads to is the state itself
(R29, R129). -/
theorem good_waiting_holds (hg : s.good = true) (hw : s.disp.waitsForHost = true) :
    ∃ why, decode (pendingFrame s) = .error why ∧ enterHold why s = s := by
  cases hd : s.disp with
  | idle => exact ⟨.noCommandByte, by rw [pendingFrame, hd]; rfl, rfl⟩
  | payloadHi =>
    obtain ⟨-, -, hc, -⟩ := (good_payloadHi_iff hd).mp hg
    refine ⟨.noPayloadHigh s.cmd, by rw [pendingFrame, hd]; exact decode_payload_nil hc, ?_⟩
    rw [enterHold, ← hd]
  | payloadLo =>
    obtain ⟨-, -, hc, -⟩ := (good_payloadLo_iff hd).mp hg
    refine ⟨.noPayloadLow s.cmd (highByte s.txd), by rw [pendingFrame, hd]; exact decode_payload_singleton hc _, ?_⟩
    rw [enterHold, withHighByte, payloadWord_halves, ← hd]
  | xfer | dbg | resp => simp [hd, SubState.waitsForHost] at hw

theorem held_iff : s.held = true ↔ s.disp.waitsForHost = true ∧ s.input = [] := by simp [State.held]

/-- A command is never without effect: it has a response (R121). -/
theorem exec_output_ne {i : Instr} (h : exec i s = .next t) : t.output ≠ s.output := by
  obtain ⟨body, houtput, -⟩ := responsesAreFramed i s t h
  rw [houtput]
  simp

/-- Settles O40: a step from a good state ends waiting, so a step without effect begins waiting; there it runs a
command, which writes, or empties the input stream. -/
theorem holdsExactlyOnEmptyInput : Obligations.HoldsExactlyOnEmptyInput := by
  intro s hg
  rw [held_iff]
  constructor
  · intro h
    obtain ⟨-, hw, -⟩ := stepsKeepGood s s hg h
    refine ⟨hw, ?_⟩
    cases hd : decode (pendingFrame s ++ s.input) with
    | ok p =>
      rw [step_of_decode_ok hw hd] at h
      exact absurd (readBytes_output _ s).symm (exec_output_ne h)
    | error why =>
      rw [step_hold hw hd, Host.Outcome.next.injEq] at h
      exact (congrArg State.input h).symm.trans (afterHold_input why s)
  · rintro ⟨hw, hi⟩
    obtain ⟨why, hd, hsame⟩ := good_waiting_holds hg hw
    rw [step_hold hw (why := why) (by rw [hi, List.append_nil, hd]), afterHold, hi, List.length_nil, readBytes, hsame]

end Sys2Proof.Machine

/-! The guard: the operations that are not the core's, and what the guard answers to each kind (R155). -/

namespace Sys2Proof.Machine

/-- The operations that the guard refuses, in the words of R155 and R82 (log 17). -/
def Request.foreign (q : Request) : Prop :=
  (∃ d, q = .configure .clk d ∨ q = .configure .dout d ∨ q = .configure .din d) ∨
    q = .write .bkpt .high ∨ q = .write .rst .high ∨ (∃ l, q = .write .din l) ∨ ∃ r, r ≠ .din ∧ q = .read r

theorem foreign_iff {q : Request} : q.foreign ↔ q.isCore = false := by
  cases q with
  | configure r d => cases r <;> simp [Request.foreign, Request.isCore]
  | write r l => cases r <;> cases l <;> simp [Request.foreign, Request.isCore]
  | read r => cases r <;> simp [Request.foreign, Request.isCore]
  | wait | hostRead | hostWrite => simp [Request.foreign, Request.isCore]

/-- Every primitive is asked for under the guard. -/
theorem perform_eq_guarded (q : Request) (s : State) : ∃ t, perform q s = guarded q t := by
  cases q <;> exact ⟨_, rfl⟩

theorem perform_of_core {q : Request} (hc : q.isCore = true) (s : State) : ∃ t, perform q s = .next t := by
  obtain ⟨t, ht⟩ := perform_eq_guarded q s
  exact ⟨t, ht.trans (guarded_core hc t)⟩

theorem perform_of_not_core {q : Request} (hc : q.isCore = false) (s : State) :
    perform q s = .refused (.notCoreAction q) := by
  obtain ⟨t, ht⟩ := perform_eq_guarded q s
  rw [ht, guarded, hc]
  rfl

/-- Settles O14: the guard asks `Request.isCore` alone, and the refused operations are those that are not the core's. -/
theorem guardRefusesForeignOperations : Obligations.GuardRefusesForeignOperations := fun _ s =>
  ⟨fun hforeign => perform_of_not_core (foreign_iff.mp hforeign) s,
    fun hother => perform_of_core (Bool.of_not_eq_false (mt foreign_iff.mpr hother)) s⟩

end Sys2Proof.Machine

/-! Totality: every part of the machine answers a next state (R140, R141, R155). -/

namespace Sys2Proof.Machine

theorem transferStep_total (k : Fin 17) (ph : Phase) (s : State) : ∃ t, transferStep k ph s = .next t := by
  cases ph with
  | drive => exact ⟨_, transferStep_drive k s⟩
  | raise => exact ⟨_, transferStep_raise k s⟩
  | lower => exact ⟨_, transferStep_lower k s⟩
  | sample => exact ⟨_, transferStep_sample k s⟩

/-- Debug-mode entry goes on at the actions of R111, which the guard lets through, and outside them (log 16). -/
theorem debugStep_total (n : Nat) (s : State) : ∃ t, debugStep n s = .next t := by
  cases hq : debugRequest (s.cmd == 0x52#8) n with
  | none => exact ⟨_, debugStep_outside hq⟩
  | some q => exact ⟨_, debugStep_action hq⟩

theorem responseStep_total (q : List Byte) (s : State) : ∃ t, responseStep q s = .next t :=
  match q with
  | [] => ⟨_, rfl⟩
  | [_] => ⟨_, rfl⟩
  | _ :: _ :: _ => ⟨_, rfl⟩

/-- A state that waits for the host holds or reads the next byte (R120, R129; log 2). -/
theorem microStep_waiting_total {s : State} (hw : s.disp.waitsForHost = true) : ∃ t, microStep s = .next t := by
  cases hi : s.input with
  | nil => exact ⟨s, microStep_hold hw hi⟩
  | cons b rest =>
    cases hd : s.disp with
    | idle => exact ⟨_, microStep_idle_cons hd hi⟩
    | payloadHi => exact ⟨_, microStep_payloadHi_cons hd hi⟩
    | payloadLo => exact ⟨_, microStep_payloadLo_cons hd hi⟩
    | xfer | dbg | resp => simp [hd, SubState.waitsForHost] at hw

theorem microStep_total (s : State) : ∃ t, microStep s = .next t := by
  cases hd : s.disp with
  | idle | payloadHi | payloadLo => exact microStep_waiting_total (by rw [hd]; rfl)
  | xfer k ph => rw [microStep_xfer hd]; exact transferStep_total k ph s
  | dbg n => rw [microStep_dbg hd]; exact debugStep_total n s
  | resp q => rw [microStep_resp hd]; exact responseStep_total q s

theorem runToHostRead_total (n : Nat) (s : State) : ∃ t, runToHostRead n s = .next t := by
  induction n generalizing s with
  | zero => exact ⟨s, rfl⟩
  | succ n ih =>
    rw [runToHostRead]
    split
    · exact ⟨s, rfl⟩
    · obtain ⟨t, ht⟩ := microStep_total s
      rw [ht]
      exact ih t

theorem step_total (s : State) : ∃ t, step s = .next t := by
  unfold step
  split
  · cases fetch s with
    | ready i v => exact ⟨_, exec_eq_respond i v⟩
    | held v => exact ⟨v, rfl⟩
  · exact runToHostRead_total (stepsToEnd s.disp) s

/-- Settles O39: the step from the totality of a command and of the action-level run, and that from the action-level
step, sub-state by sub-state. -/
theorem nothingStopsTheMachine : Obligations.NothingStopsTheMachine := fun s => ⟨step_total s, microStep_total s⟩

end Sys2Proof.Machine

/-! The hazards: the trace of a command from every pin state, where it samples, its clock pulses and its direction
changes (R155, R170, R172, R173). -/

namespace Sys2Proof.Machine

/-- Before its response a command adds the actions of its closed form, for some samples, whatever the directions of the
pins (R130). -/
theorem beforeResponse_trace (i : Instr) (s : State) :
    ∃ samples, samples.length = sampleCount i ∧
      (beforeResponse i s).2.trace = s.trace ++ runActions i samples := by
  cases i with
  | ping | unknown => exact ⟨[], rfl, (List.append_nil _).symm⟩
  | breakpoint | reset => exact ⟨[], rfl, enterDebugMode_trace _ s⟩
  | sendReceive | send | receive => exact exchangePacket_trace _ s

/-- A command adds the actions of its closed form and then its HostWrites, from every pin state (R52, R130). -/
theorem exec_trace {i : Instr} {s t : State} (h : exec i s = .next t) :
    ∃ (samples : List Level) (response : List Byte), samples.length = sampleCount i ∧
      t.trace = s.trace ++ (runActions i samples ++ response.map .hostWrite) := by
  obtain ⟨samples, hlen, htrace⟩ := beforeResponse_trace i s
  rw [exec_eq_respond] at h
  cases h
  exact ⟨samples, (beforeResponse i s).1, hlen, by rw [respond_eq, htrace, List.append_assoc]⟩

/-- Every action a command adds to the trace is one of the core's (R155). -/
theorem exec_actions_core {i : Instr} {s t : State} {actions : List Action} (h : exec i s = .next t)
    (htrace : t.trace = s.trace ++ actions) : ∀ a ∈ actions, a.isCore = true := by
  obtain ⟨performed, hp⟩ := exec_runsTo h
  obtain rfl : performed = actions := List.append_cancel_left (hp.trace.symm.trans htrace)
  exact hp.core

/-! Samples -/

/-- Actions without a read have no sample out of place. -/
theorem sampleAfterFall_of_no_read {actions : List Action} (h : ∀ r l, .pinRead r l ∉ actions) :
    sampleAfterFall actions = true := by
  induction actions using sampleAfterFall.induct with
  | case1 => rfl
  | case2 r l => exact absurd List.mem_cons_self (h r l)
  | case3 l rest => exact absurd (by simp) (h .din l)
  | case4 a rest hread hfall ih =>
    rw [sampleAfterFall.eq_4 _ _ hread hfall]
    exact ih fun r l hmem => h r l (List.mem_cons_of_mem a hmem)

/-- The one read of a bit transfer follows its clock fall and settle wait (R90, R170). -/
theorem sampleAfterFall_transferActions_append (b : Bit) (l : Level) (rest : List Action) :
    sampleAfterFall (transferActions b l ++ rest) = sampleAfterFall rest := rfl

theorem sampleAfterFall_transfersActions_append (bits : List Bit) (samples : List Level) (rest : List Action) :
    sampleAfterFall (transfersActions bits samples ++ rest) = sampleAfterFall rest := by
  induction bits generalizing samples with
  | nil => rfl
  | cons b bs ih =>
    cases samples with
    | nil => rfl
    | cons l ls => rw [transfersActions, List.append_assoc, sampleAfterFall_transferActions_append, ih]

theorem pinRead_not_mem_debugActions (withReset : Bool) (r : Role) (l : Level) :
    .pinRead r l ∉ debugActions withReset := by
  cases withReset <;> simp [debugActions_false, debugActions_true]

/-- Every sample of a command stands directly after the clock fall and the settle wait (R170). -/
theorem sampleAfterFall_command (i : Instr) (samples : List Level) (response : List Byte) :
    sampleAfterFall (runActions i samples ++ response.map .hostWrite) = true := by
  have hwrites (r : Role) (l : Level) : Action.pinRead r l ∉ response.map .hostWrite := by simp
  cases i with
  | ping | unknown => exact sampleAfterFall_of_no_read hwrites
  | breakpoint | reset =>
    refine sampleAfterFall_of_no_read fun r l hmem => ?_
    exact (List.mem_append.mp hmem).elim (pinRead_not_mem_debugActions _ r l) (hwrites r l)
  | sendReceive | send | receive =>
    exact (sampleAfterFall_transfersActions_append _ _ _).trans (sampleAfterFall_of_no_read hwrites)

/-! Clock pulses -/

theorem clockRises_append (a b : List Action) : clockRises (a ++ b) = clockRises a + clockRises b :=
  List.count_append

theorem clockRises_hostWrites (bytes : List Byte) : clockRises (bytes.map .hostWrite) = 0 :=
  List.count_eq_zero.mpr (by simp)

theorem clockRises_debugActions (withReset : Bool) : clockRises (debugActions withReset) = 0 := by
  cases withReset <;> rfl

/-- Each bit transfer of a packet is one pulse (R101, R172). -/
theorem clockRises_packet (d : Word) {samples : List Level} (hlen : samples.length = 17) :
    clockRises (transfersActions (outboundBits d) samples) = 17 := by
  have hbits : samples.length = (outboundBits d).length := by rw [hlen, outboundBits_length]
  have hpulse (b : Bit) (l : Level) : clockRises (transferActions b l) = 1 := by cases b <;> rfl
  calc clockRises (transfersActions (outboundBits d) samples)
    _ = 1 * (outboundBits d).length := countP_transfersActions (p := (· == .pinWrite .clk .high)) hpulse hbits
    _ = 17 := by rw [outboundBits_length]

/-- A command makes one clock pulse for each sample it takes (R172). -/
theorem clockRises_runActions {i : Instr} {samples : List Level} (hlen : samples.length = sampleCount i) :
    clockRises (runActions i samples) = sampleCount i := by
  cases i with
  | ping | unknown => rfl
  | breakpoint | reset => exact clockRises_debugActions _
  | sendReceive | send | receive => exact clockRises_packet _ hlen

/-! Directions -/

theorem mem_transfersActions {a : Action} {bits : List Bit} {samples : List Level}
    (h : a ∈ transfersActions bits samples) : ∃ b l, a ∈ transferActions b l := by
  induction bits generalizing samples with
  | nil => cases h
  | cons b bs ih =>
    cases samples with
    | nil => cases h
    | cons l ls => exact (List.mem_append.mp h).elim (fun hhead => ⟨b, l, hhead⟩) fun htail => ih htail

/-- A bit transfer changes no direction (R97). -/
theorem pinConfigure_not_mem_transferActions (r : Role) (d : Dir) (b : Bit) (l : Level) :
    .pinConfigure r d ∉ transferActions b l := by simp [transferActions]

/-- A command that takes samples changes no direction (R173). -/
theorem pinConfigure_not_mem_runActions {i : Instr} (hcount : sampleCount i ≠ 0) (samples : List Level) (r : Role)
    (d : Dir) : .pinConfigure r d ∉ runActions i samples := by
  cases i with
  | ping | breakpoint | reset | unknown => exact absurd rfl hcount
  | sendReceive | send | receive =>
    intro hmem
    obtain ⟨b, l, htransfer⟩ := mem_transfersActions hmem
    exact pinConfigure_not_mem_transferActions r d b l htransfer

/-- Settles O54: a command's trace is its closed form, with other samples where DIN is no input, and its HostWrites. -/
theorem commandsRespectHazards : Obligations.CommandsRespectHazards := by
  intro i s t h
  obtain ⟨samples, response, hlen, htrace⟩ := exec_trace h
  refine ⟨_, htrace, exec_actions_core h htrace, sampleAfterFall_command i samples response, ?rises, ?directions⟩
  case rises => rw [clockRises_append, clockRises_runActions hlen, clockRises_hostWrites, Nat.add_zero]
  case directions =>
    intro hcount r d hmem
    exact (List.mem_append.mp hmem).elim (pinConfigure_not_mem_runActions hcount samples r d) (by simp)

end Sys2Proof.Machine

/-! The lines that are never driven HIGH, prefix by prefix (R27, R174). -/

namespace Sys2Proof.Machine

/-- A line whose output level is LOW is not driven HIGH, whichever way it is directed (R25, R174). -/
theorem neverHigh_of_lat_low {r : Role} {p : Pins} (h : p.lat.get r = .low) : neverHigh r p = true := by
  simp [neverHigh, h]

/-- Pins that keep R27 (b) drive neither BKPT nor RST HIGH (R174). -/
theorem neverHigh_of_linesOk {p : Pins} (h : linesOk p) : neverHigh .bkpt p = true ∧ neverHigh .rst p = true := by
  obtain ⟨-, hbkpt, hrst⟩ := linesOk_iff.mp h
  exact ⟨neverHigh_of_lat_low hbkpt, neverHigh_of_lat_low hrst⟩

/-- Settles O53: a step is a run of the core's actions, so each prefix of it is one too and keeps the LOW levels. -/
theorem breakpointAndResetNeverDrivenHigh : Obligations.BreakpointAndResetNeverDrivenHigh := by
  intro s t hg h
  obtain ⟨hlines, -⟩ := good_iff.mp hg
  obtain ⟨actions, hp⟩ := step_runsTo h
  refine ⟨actions, hp.trace, fun n => ?_⟩
  have hprefix : ∀ a ∈ actions.take n, a.isCore = true := fun a ha => hp.core a (List.mem_of_mem_take ha)
  exact neverHigh_of_linesOk (linesOk_replay hprefix hlines)

end Sys2Proof.Machine

/-! The waits of a command (R111, R150, R180). -/

namespace Sys2Proof.Machine

variable (dur : Interval → Nat)

theorem minDuration_append (a b : List Action) : minDuration dur (a ++ b) = minDuration dur a + minDuration dur b := by
  simp [minDuration]

/-- A response waits for nothing (R121). -/
theorem minDuration_hostWrites (bytes : List Byte) : minDuration dur (bytes.map .hostWrite) = 0 := by
  induction bytes with
  | nil => rfl
  | cons b bs ih => rw [List.map_cons, minDuration_cons, ih]; rfl

/-- A bit transfer settles three times (R91, R97). -/
theorem minDuration_transferActions (b : Bit) (l : Level) :
    minDuration dur (transferActions b l) = 3 * dur .settle := by
  simp only [minDuration, transferActions, holdAfter, List.map_cons, List.map_nil, List.sum_cons, List.sum_nil]
  ring

theorem minDuration_transfersActions {bits : List Bit} {samples : List Level} (hlen : samples.length = bits.length) :
    minDuration dur (transfersActions bits samples) = bits.length * (3 * dur .settle) := by
  induction bits generalizing samples with
  | nil => exact (Nat.zero_mul _).symm
  | cons b bs ih =>
    obtain ⟨l, ls, rfl⟩ := List.exists_cons_of_length_eq_add_one hlen
    rw [transfersActions, minDuration_append, minDuration_transferActions, ih (by simpa using hlen), List.length_cons]
    ring

/-- The 17 transfers of a packet settle 51 times, whatever the word and the samples (R101, R180). -/
theorem minDuration_packet (d : Word) {samples : List Level} (hlen : samples.length = 17) :
    minDuration dur (transfersActions (outboundBits d) samples) = 51 * dur .settle := by
  have hbits : samples.length = (outboundBits d).length := by rw [hlen, outboundBits_length]
  rw [minDuration_transfersActions dur hbits, outboundBits_length]
  ring

/-- Settles O59: a command's trace is its closed form and its HostWrites, and only the closed form waits. -/
theorem commandDurations : Obligations.CommandDurations := by
  intro dur i s t h
  obtain ⟨samples, response, hlen, htrace⟩ := exec_trace h
  refine ⟨_, htrace, ?_⟩
  rw [minDuration_append, minDuration_hostWrites, Nat.add_zero]
  cases i with
  | ping | unknown => rfl
  | breakpoint => exact minDuration_debugActions dur false
  | reset =>
    calc minDuration dur (debugActions true)
      _ = dur .bkptAssert + (dur .rstAssert + dur .rstRelease) + dur .bkptRelease := minDuration_debugActions dur true
      _ = dur .bkptAssert + dur .rstAssert + dur .rstRelease + dur .bkptRelease := by
        rw [← Nat.add_assoc (dur .bkptAssert)]
  | sendReceive | send | receive => exact minDuration_packet dur _ hlen

end Sys2Proof.Machine

/-! The reset sequence (R33, R160). -/

namespace Sys2Proof.Machine

/-- From power-up the reset sequence performs the trace of the reset state; only the pins depend on those at
power-up. -/
theorem resetSequence_powerUp (pins : Pins) :
    resetSequence (State.powerUp pins) = { State.reset with pins := replay State.reset.trace pins } := rfl

/-- Settles O48: the actions of the sequence set every pin but DIN's latch, which is LOW already. -/
theorem resetSequenceEstablishesReset : Obligations.ResetSequenceEstablishesReset := by
  refine fun pins hdin => ⟨?state, rfl⟩
  case state => rw [resetSequence_powerUp, replay_reset_trace hdin]

end Sys2Proof.Machine
